-- ==== Sys2Proof/Word.lean ====
section
/-! DEFINITION. The word types of the TR198A RF command encoder (spec 00_scope.md R7, R8). -/
namespace Sys2Proof

/-- A 32-bit word of the request port: `REQ` or `IDV` (R7, R44). -/
abbrev Word := BitVec 32

/-- An 8-bit value: the PARAM field (R71), a breeze preset id (R28), a byte of the transmit buffer (R40). -/
abbrev Byte := BitVec 8

/-- A handset identity (R43): 16 bits, unsigned. -/
abbrev Identity := BitVec 16

end Sys2Proof
end

