-- ==== Sys2Proof/Syntax.lean ====
section
/-! DEFINITION. The syntax of the block: commands (R43), status codes (R210), the request on the port (R44, R70) and the
nine requests of spec/opcode_table.json as the one inductive `Instr`. -/
namespace Sys2Proof

/-- A rotation direction (R43). -/
inductive Direction where
  | fwd
  | rev
  deriving DecidableEq, Repr

/-- A dim direction (R43). -/
inductive DimDir where
  | up
  | down
  deriving DecidableEq, Repr

/-- A semantic command (R43). A `breezePreset` is a command of a configuration only when its id is in `BREEZE_IDS`
(`Cfg.commands`). -/
inductive Cmd where
  | setSpeed (level : Fin 10)
  | setDirection (d : Direction)
  | toggleLight
  | dimStep (d : DimDir)
  | breezePreset (id : Byte)
  | pair
  deriving DecidableEq, Repr

/-- The status codes of R210. The reserved codes `0x7` to `0xF` are never written and have no constructor (I34;
assumption 13). -/
inductive Status where
  | ok
  | invalidIdentity
  | outOfRange
  | unknownPreset
  | encodingError
  | malformedRequest
  /-- The host's code for a transport failure; the block never writes it (R216). -/
  | deliveryError
  deriving DecidableEq, Repr

/-- A request on the port: the request word and the identity operand, presented together (R44, R70). -/
structure Request where
  req : Word
  idv : Word
  deriving DecidableEq, Repr

/-- The nine requests of spec/opcode_table.json, with the operand fields R71 and R76 give each. A must-be-zero field has
no place here, so every `Instr` is well formed by its type. -/
inductive Instr where
  /-- GEN_ID (R104). -/
  | genId
  /-- VALIDATE_ID (R105). -/
  | validateId (idv : Word)
  /-- BUILD_PAIR (R181). -/
  | buildPair (idv : Word)
  /-- SET_SPEED (R182). -/
  | setSpeed (param : Byte) (idv : Word)
  /-- SET_DIRECTION (R183). -/
  | setDirection (param : Byte) (idv : Word)
  /-- TOGGLE_LIGHT (R184). -/
  | toggleLight (idv : Word)
  /-- DIM_STEP (R185). -/
  | dimStep (param : Byte) (idv : Word)
  /-- BREEZE_PRESET (R186). -/
  | breezePreset (param : Byte) (idv : Word)
  /-- CMD_PAIR (R187). -/
  | cmdPair (idv : Word)
  deriving DecidableEq, Repr

end Sys2Proof
end

