-- ==== Sys2Proof/Config.lean ====
section
/-! DEFINITION. The configuration record `CFG` (R6, R21 to R42), its well-formedness check `WF_CFG` (R41), and the
constants of the implementation that the spec leaves open. `Cfg` is the raw record, `Config` a record that passes the
check. -/
namespace Sys2Proof

/-- A timing pair: two durations in `TIME_UNIT` (R9, R81). -/
structure TimingPair where
  mark : Nat
  space : Nat
  deriving DecidableEq, Repr

/-- A modulation. The block only ever uses `ook` (R38); `other` lets the check `wf_carrier` refuse something
(assumption 11). -/
inductive Modulation where
  | ook
  | other (code : Nat)
  deriving DecidableEq, Repr

/-- The unit of every duration (R39), an open parameter. DESIGN CHOICE (assumption 12): the spec names no set of units; a
unit here is a common one, a fraction of a second, or any other unit by its name, so every unit can be configured. No rule
computes with it. -/
inductive TimeUnit where
  | microseconds
  | milliseconds
  | nanoseconds
  /-- `num / den` of a second: 350 microseconds is `fractionOfSecond 350 1000000`. -/
  | fractionOfSecond (num den : Nat)
  /-- Any other unit, by its name. -/
  | named (label : String)
  deriving DecidableEq, Repr

/-- The order of the bits inside a codeword field on the air (R32). -/
inductive BitOrder where
  | msbFirst
  | lsbFirst
  deriving DecidableEq, Repr

/-- The frame builder's output (R155). -/
structure EncodedPacket where
  frame : List TimingPair
  repeatCount : Nat
  timings : List TimingPair
  carrierHz : Nat
  modulation : Modulation
  timeUnit : TimeUnit
  deriving DecidableEq, Repr

/-- A checksum function as plain data (R30, R31; assumption 3). `sum` and `xor` name the candidate families of R134,
`xorConst` is a function followed by an exclusive or with a constant, and `table` lists any function's values by
argument, so every total function from `W_PRE` to `W_CHK` bits has a name. `Checksum.apply` says what each computes. -/
inductive Checksum where
  | sum
  | xor
  | xorConst (base : Checksum) (mask : Nat)
  | table (rows : List (Nat × Nat)) (otherwise : Nat)
  deriving DecidableEq, Repr

/-- The raw configuration record, one field per rule R22 to R40. -/
structure Cfg where
  /-- `W_SYNC` (R22). -/
  wSync : Nat
  /-- `SYNC_VAL` (R23). -/
  syncVal : BitVec wSync
  /-- `W_ID` (R24). -/
  wId : Nat
  /-- `RESERVED_IDS`, a set: only membership counts (R25). -/
  reservedIds : List Identity
  /-- `W_OP` (R26). -/
  wOp : Nat
  /-- `OPC` (R27), listed by command; the first row of a command counts (assumption 2). -/
  opc : List (Cmd × BitVec wOp)
  /-- `BREEZE_IDS`, a set: only membership counts (R28). -/
  breezeIds : List Byte
  /-- `W_CHK` (R29). -/
  wChk : Nat
  /-- `CHK_CMD` (R30). -/
  chkCmd : Checksum
  /-- `CHK_PAIR` (R31). -/
  chkPair : Checksum
  /-- `BIT_ORDER` (R32). -/
  bitOrder : BitOrder
  /-- `T0` (R33). -/
  t0 : TimingPair
  /-- `T1` (R33). -/
  t1 : TimingPair
  /-- `PREAMBLE` (R34). -/
  preamble : List TimingPair
  /-- `TRAILER` (R35). -/
  trailer : List TimingPair
  /-- `GAP` (R36). -/
  gap : Nat
  /-- `REPEAT` (R37). -/
  repeatCount : Nat
  /-- `CARRIER_HZ` (R38). -/
  carrierHz : Nat
  /-- `MODULATION` (R38). -/
  modulation : Modulation
  /-- `TIME_UNIT` (R39). -/
  timeUnit : TimeUnit
  /-- `W_DUR` (R39). -/
  wDur : Nat
  /-- Which function `SERIALIZE` (R40) is: the key of `Config.serialize` (assumption 4). -/
  serializer : Nat
  deriving DecidableEq, Repr

namespace Cfg

/-- `W_PRE` (R42). -/
abbrev wPre (c : Cfg) : Nat := c.wSync + c.wId + c.wOp

/-- `W_CW` (R42). -/
abbrev wCw (c : Cfg) : Nat := c.wPre + c.wChk

/-- `OPC(cmd)` (R27). -/
def opcodeOf (c : Cfg) (cmd : Cmd) : Option (BitVec c.wOp) := c.opc.lookup cmd

/-- The commands of a configuration, `16 + |BREEZE_IDS|` of them (R43). -/
def commands (c : Cfg) : List Cmd :=
  (List.finRange 10).map Cmd.setSpeed
    ++ [.setDirection .fwd, .setDirection .rev, .toggleLight, .dimStep .up, .dimStep .down]
    ++ c.breezeIds.map Cmd.breezePreset ++ [.pair]

/-- Membership of `ValidIds` (R100). -/
def isValidId (c : Cfg) (v : Identity) : Bool :=
  decide (v.toNat < 2 ^ min 16 c.wId) && !c.reservedIds.contains v

/-- The first valid identity among `v, v + 1, …`, `fuel` of them. -/
def searchValidId (c : Cfg) : Nat → Nat → Option Identity
  | 0, _ => none
  | fuel + 1, v =>
    if c.isValidId (BitVec.ofNat 16 v) then some (BitVec.ofNat 16 v) else c.searchValidId fuel (v + 1)

/-- The least member of `ValidIds` (R100), if there is one. -/
def firstValidId? (c : Cfg) : Option Identity := c.searchValidId (2 ^ min 16 c.wId) 0

/-- The pairs the configuration fixes: `T0`, `T1`, `PREAMBLE`, `TRAILER`. -/
def fixedPairs (c : Cfg) : List TimingPair := c.t0 :: c.t1 :: (c.preamble ++ c.trailer)

/-- The spaces that can be the last of a frame body (R152, R153): the trailer's last, or a data symbol's where there is
no trailer (assumption 10). -/
def finalSpaces (c : Cfg) : List Nat :=
  match c.trailer.getLast? with
  | some p => [p.space]
  | none => [c.t0.space, c.t1.space]

/-- `wf_id_width` (R41). -/
def wfIdWidth (c : Cfg) : Bool := decide (1 ≤ c.wId)
/-- `wf_reserved_zero` (R41). -/
def wfReservedZero (c : Cfg) : Bool := c.reservedIds.contains 0
/-- `wf_id_space` (R41): a search finds a member of `ValidIds`. -/
def wfIdSpace (c : Cfg) : Bool := c.firstValidId?.isSome
/-- `wf_op_width` (R41). -/
def wfOpWidth (c : Cfg) : Bool := decide (1 ≤ c.wOp)
/-- `wf_opc_injective` (R41): two commands with one opcode are one command. -/
def wfOpcInjective (c : Cfg) : Bool :=
  c.commands.all fun a => c.commands.all fun b =>
    (c.opcodeOf a).isNone || c.opcodeOf a != c.opcodeOf b || a == b
/-- `wf_breeze_nonempty` (R41). -/
def wfBreezeNonempty (c : Cfg) : Bool := !c.breezeIds.isEmpty
/-- `wf_chk_width` (R41). -/
def wfChkWidth (c : Cfg) : Bool := decide (1 ≤ c.wChk)
/-- `wf_symbols_distinct` (R41). -/
def wfSymbolsDistinct (c : Cfg) : Bool := c.t0 != c.t1
/-- `wf_durations_positive` (R41). -/
def wfDurationsPositive (c : Cfg) : Bool := c.fixedPairs.all fun p => decide (1 ≤ p.mark) && decide (1 ≤ p.space)
/-- `wf_repeat` (R41). -/
def wfRepeat (c : Cfg) : Bool := decide (1 ≤ c.repeatCount)
/-- `wf_durations_fit` (R41, R39). -/
def wfDurationsFit (c : Cfg) : Bool :=
  (c.fixedPairs.all fun p => decide (p.mark < 2 ^ c.wDur) && decide (p.space < 2 ^ c.wDur))
    && c.finalSpaces.all fun s => decide (s + c.gap < 2 ^ c.wDur)
/-- `wf_carrier` (R41). -/
def wfCarrier (c : Cfg) : Bool := decide (1 ≤ c.carrierHz) && c.modulation == .ook

/-- `WF_CFG` (R41): the conjunction of the twelve named checks. -/
def wf (c : Cfg) : Bool :=
  c.wfIdWidth && c.wfReservedZero && c.wfIdSpace && c.wfOpWidth && c.wfOpcInjective && c.wfBreezeNonempty
    && c.wfChkWidth && c.wfSymbolsDistinct && c.wfDurationsPositive && c.wfRepeat && c.wfDurationsFit && c.wfCarrier

/-- What the search for a valid identity finds is valid. -/
theorem searchValidId_valid (c : Cfg) :
    ∀ (fuel v : Nat) (x : Identity), c.searchValidId fuel v = some x → c.isValidId x = true
  | 0, _, _, h => by simp [searchValidId] at h
  | fuel + 1, v, x, h => by
    unfold searchValidId at h
    split at h
    · next hv => cases h; exact hv
    · exact c.searchValidId_valid fuel (v + 1) x h

end Cfg

/-- A configuration that passes `WF_CFG`. A record that fails has no `Config`, so no state and no step is about it: the
refusal of R229 (assumption 9). -/
structure Config where
  raw : Cfg
  wf : raw.wf = true
  deriving DecidableEq, Repr

namespace Config

/-- A member of `ValidIds` (R100) under a configuration. -/
abbrev ValidId (c : Config) := { v : Identity // c.raw.isValidId v = true }

/-- `ValidIds` is non-empty under `WF_CFG` (R41, `wf_id_space`): its least member. It only shows that `entropy` has a
value to take; nothing reads it. -/
def leastValidId (c : Config) : c.ValidId :=
  match h : c.raw.firstValidId? with
  | some x => ⟨x, c.raw.searchValidId_valid _ _ x h⟩
  | none => absurd c.wf (by simp [Cfg.wf, Cfg.wfIdSpace, h])

/-- `Draw(ValidIds)` (R10, R102), the free value of GEN_ID: the entropy source's `n`-th draw under a configuration. It
has no body, so all that is known of a draw is that it lies in `ValidIds` (assumption 5). The argument `h` only says
that the type has a member. -/
opaque entropy (c : Config) (h : Inhabited c.ValidId) (n : Nat) : c.ValidId

/-- The state reset leaves the entropy source in, from the state it had: unspecified (R49, R240; assumption 6). -/
opaque entropyAfterReset (ent : Nat) : Nat

/-- `SERIALIZE` (R40): the transport's function from packets to bytes, one for each key. It has no body (assumption 4). -/
opaque serialize (key : Nat) (p : EncodedPacket) : List Byte

/-- The configured constants (R6, R21), of a type with a member `h`: no body, so no value of a protocol constant is
known (assumption 1). -/
opaque configuredOf (h : Inhabited Config) : Config

/-- A small configuration that passes `WF_CFG`. Its values are no protocol data: it only shows that the type `Config` has a
member, and nothing reads it. -/
def smallest : Config where
  raw :=
    { wSync := 0, syncVal := 0, wId := 1, reservedIds := [0], wOp := 1, opc := [], breezeIds := [0], wChk := 1,
      chkCmd := .sum, chkPair := .sum, bitOrder := .msbFirst, t0 := ⟨1, 1⟩, t1 := ⟨2, 1⟩, preamble := [], trailer := [],
      gap := 0, repeatCount := 1, carrierHz := 1, modulation := .ook, timeUnit := .microseconds, wDur := 2,
      serializer := 0 }
  wf := by decide

/-- The configuration the block was given before its first request (R21, R242). -/
def configured : Config := configuredOf ⟨smallest⟩

end Config

end Sys2Proof
end

