-- ==== Sys2Proof/Machine/Checksum.lean ====
section
/-! DEFINITION. The candidate checksum families (R133 to R135) and the value of a configured checksum function
(R30, R31). -/
namespace Sys2Proof.Machine

/-- `n = ceil(W_PRE / g)` of R133. -/
def groupCount (n g : Nat) : Nat := (n + g - 1) / g

/-- `G_j(P)` of R133: group `j` of `P` padded with zeros at its most significant end. -/
def checksumGroup {n : Nat} (g j : Nat) (p : BitVec n) : BitVec g :=
  (p.setWidth (groupCount n g * g)).extractLsb' (j * g) g

/-- All groups of `P`, `G_0` first (R133). -/
def checksumGroups {n : Nat} (g : Nat) (p : BitVec n) : List (BitVec g) :=
  (List.range (groupCount n g)).map fun j => checksumGroup g j p

/-- `CHK_SUM_g` (R134): the sum over the naturals, reduced modulo `2^g` (R135). -/
def chkSum {n : Nat} (g : Nat) (p : BitVec n) : BitVec g :=
  BitVec.ofNat g ((checksumGroups g p).map BitVec.toNat).sum

/-- `CHK_XOR_g` (R134). -/
def chkXor {n : Nat} (g : Nat) (p : BitVec n) : BitVec g :=
  (checksumGroups g p).foldr (fun a b => a ^^^ b) 0

end Sys2Proof.Machine

namespace Sys2Proof

/-- The function a configured checksum names (R30, R31; assumption 3). -/
def Checksum.apply {n : Nat} (g : Nat) (p : BitVec n) : Checksum → BitVec g
  | .sum => Machine.chkSum g p
  | .xor => Machine.chkXor g p
  | .xorConst base mask => base.apply g p ^^^ BitVec.ofNat g mask
  | .table rows otherwise => BitVec.ofNat g ((rows.lookup p.toNat).getD otherwise)

end Sys2Proof
end

