-- ==== Sys2Proof/WellFormed.lean ====
section
/-! DEFINITION. The wire-format checks of a request (R72, R73, R75, R78), one by name, in the order of R77. The checks of
a configuration (R41) stand in Sys2Proof/Config.lean, where the type `Config` needs them. Every `Instr` is well formed by
its type: its fields are as wide as the encoding's. -/
namespace Sys2Proof.Request

/-- `RSVD = REQ[15:0]` is zero (R75). -/
def wfRsvd (r : Request) : Bool := r.req.toNat % 2 ^ 16 == 0

/-- `FUNC = REQ[31:28]` is one of `0x1` to `0x4` (R72, R78). -/
def wfFunc (r : Request) : Bool := [1, 2, 3, 4].contains (r.req.toNat / 2 ^ 28)

/-- `VARIANT = REQ[27:24]` is below `0x6` under BUILD_CMD (R73, R78). -/
def wfVariant (r : Request) : Bool := r.req.toNat / 2 ^ 28 != 4 || decide (r.req.toNat / 2 ^ 24 % 16 < 6)

/-- `REQ[27:16]` is zero outside BUILD_CMD (R75). -/
def wfUnused (r : Request) : Bool := r.req.toNat / 2 ^ 28 == 4 || r.req.toNat / 2 ^ 16 % 2 ^ 12 == 0

/-- `PARAM = REQ[23:16]` is zero for TOGGLE_LIGHT and PAIR (R75). -/
def wfParam (r : Request) : Bool :=
  !(r.req.toNat / 2 ^ 28 == 4 && [2, 5].contains (r.req.toNat / 2 ^ 24 % 16)) || r.req.toNat / 2 ^ 16 % 2 ^ 8 == 0

/-- `IDV` is zero for GEN_ID (R75). -/
def wfIdv (r : Request) : Bool := r.req.toNat / 2 ^ 28 != 1 || r.idv == 0

/-- The wire format of a request is good: no clause of R75 or R78 is violated. -/
def wellFormed (r : Request) : Bool := r.wfRsvd && r.wfFunc && r.wfVariant && r.wfUnused && r.wfParam && r.wfIdv

end Sys2Proof.Request
end

