-- ==== Sys2Proof/Decode.lean ====
section
/-! DEFINITION. The request decoder (R71 to R78) and the encoder (R71 to R74, R82). Both work on whole 32-bit values: no
byte order applies (R52). -/
namespace Sys2Proof

/-- `FUNC = REQ[31:28]` (R71). -/
def Request.func (r : Request) : BitVec 4 := r.req.extractLsb' 28 4
/-- `VARIANT = REQ[27:24]` (R71). -/
def Request.variant (r : Request) : BitVec 4 := r.req.extractLsb' 24 4
/-- `PARAM = REQ[23:16]` (R71). -/
def Request.param (r : Request) : Byte := r.req.extractLsb' 16 8
/-- `RSVD = REQ[15:0]` (R71). -/
def Request.rsvd (r : Request) : BitVec 16 := r.req.extractLsb' 0 16
/-- `REQ[27:16]`: VARIANT and PARAM together (R75). -/
def Request.variantParam (r : Request) : BitVec 12 := r.req.extractLsb' 16 12

/-- The decoder's arm for `FUNC = BUILD_CMD` (R73, R77). -/
def decodeBuildCmd (r : Request) : Except Status Instr :=
  match r.variant.toNat with
  | 0 => .ok (.setSpeed r.param r.idv)
  | 1 => .ok (.setDirection r.param r.idv)
  | 2 => if r.param = 0 then .ok (.toggleLight r.idv) else .error .malformedRequest
  | 3 => .ok (.dimStep r.param r.idv)
  | 4 => .ok (.breezePreset r.param r.idv)
  | 5 => if r.param = 0 then .ok (.cmdPair r.idv) else .error .malformedRequest
  | _ => .error .malformedRequest

/-- The request decoder (R77): total, and every request it does not accept is rejected by the name
`MALFORMED_REQUEST` (R78, R215). -/
def decode (r : Request) : Except Status Instr :=
  if r.rsvd = 0 then
    match r.func.toNat with
    | 1 => if r.variantParam = 0 ∧ r.idv = 0 then .ok .genId else .error .malformedRequest
    | 2 => if r.variantParam = 0 then .ok (.validateId r.idv) else .error .malformedRequest
    | 3 => if r.variantParam = 0 then .ok (.buildPair r.idv) else .error .malformedRequest
    | 4 => decodeBuildCmd r
    | _ => .error .malformedRequest
  else .error .malformedRequest

/-- A request word from its fields, RSVD zero (R71). -/
def requestWord (func variant : BitVec 4) (param : Byte) : Word := func ++ variant ++ param ++ 0#16

/-- The encoder: the request of an instruction (R72 to R74, R82). -/
def encode : Instr → Request
  | .genId => ⟨requestWord 1 0 0, 0⟩
  | .validateId idv => ⟨requestWord 2 0 0, idv⟩
  | .buildPair idv => ⟨requestWord 3 0 0, idv⟩
  | .setSpeed p idv => ⟨requestWord 4 0 p, idv⟩
  | .setDirection p idv => ⟨requestWord 4 1 p, idv⟩
  | .toggleLight idv => ⟨requestWord 4 2 0, idv⟩
  | .dimStep p idv => ⟨requestWord 4 3 p, idv⟩
  | .breezePreset p idv => ⟨requestWord 4 4 p, idv⟩
  | .cmdPair idv => ⟨requestWord 4 5 0, idv⟩

/-- The request whose bits are the low `nbits` bits of `w`: `REQ` is bits 31..0 and `IDV` bits 63..32, and every bit
above `nbits` is zero (assumption 8). -/
def requestOfTableWord (nbits w : Nat) : Request :=
  ⟨BitVec.ofNat 32 (w % 2 ^ nbits), BitVec.ofNat 32 (w % 2 ^ nbits / 2 ^ 32)⟩

/-- The instruction the decoder reads from a word numbered as spec/opcode_table.json numbers its bits. -/
def decodeTableWord (nbits w : Nat) : Option Instr :=
  match decode (requestOfTableWord nbits w) with
  | .ok i => some i
  | .error _ => none

end Sys2Proof
end

