-- ==== Sys2Proof/Machine/State.lean ====
section
/-! DEFINITION. The state of the block (R20, R49), its responses (R45), and the reasons a step could stop. -/
namespace Sys2Proof.Machine

/-- A codeword with its width. In every response the block writes the width is `W_CW` (R42, R79; assumption 14). -/
structure Codeword where
  width : Nat
  bits : BitVec width
  deriving DecidableEq, Repr

/-- A response (R45): `status`, and the four fields that are present only with `status = OK`. -/
structure Response where
  status : Status
  id : Option Identity := none
  cw : Option Codeword := none
  pkt : Option EncodedPacket := none
  txbuf : Option (List Byte) := none
  deriving DecidableEq, Repr

/-- The faults of a step. There is none: the block has no trap and every error is a status code (R219, R221), so no step
stops with a fault. -/
inductive Fault where
  deriving DecidableEq, Repr

/-- The refusals. -/
inductive Refusal where
  /-- An instruction without a meaning, by its mnemonic. No arm of `exec` answers it: every instruction of the table has
  its meaning. It would be safe, since nothing could be proved of such an instruction. -/
  | notModelled (mnemonic : String)
  /-- A configuration record that fails `WF_CFG` is refused as a whole (R229). `State.boot` raises it; no step does,
  since a state holds a well-formed configuration by its type. Safe: nothing can be proved of such a configuration. -/
  | illFormedConfig
  deriving DecidableEq, Repr

/-- The state: the three pieces of R20 and the request port of R49. -/
structure State where
  /-- `CFG` (R21): constant. -/
  cfg : Config
  /-- The request port (R44, R49): `none` when idle, else the request in progress. -/
  port : Option Request
  /-- `LAST`, the response latch (R46). -/
  last : Option Response
  /-- `ENT` (R47), as the number of draws taken: the model's own field (assumption 5). -/
  ent : Nat
  deriving DecidableEq, Repr

/-- The block right after reset (R49): `CFG` the configured constants, the port idle, `LAST` none. `ENT` is unspecified
there; the count 0 is a DESIGN CHOICE (assumption 5). -/
def State.reset : State where
  cfg := Config.configured
  port := none
  last := none
  ent := 0

end Sys2Proof.Machine
end

