-- ==== Sys2Proof/Machine/Encoder.lean ====
section
/-! DEFINITION. The payload encoder: opcode lookup, codeword assembly, field extraction and the on-air bit sequence
(R127 to R132). -/
namespace Sys2Proof.Machine

/-- `opcode` (R127). -/
def opcode (c : Cfg) (cmd : Cmd) : Except Status (BitVec c.wOp) :=
  match c.opcodeOf cmd with
  | some o => .ok o
  | none => .error .encodingError

/-- `pre` (R128): SYNC, ID and OP, most significant first. -/
def preChecksum (c : Cfg) (id : Identity) (o : BitVec c.wOp) : BitVec c.wPre :=
  c.syncVal ++ id.setWidth c.wId ++ o

/-- `checksum` (R129). -/
def checksum (c : Cfg) (cmd : Cmd) (p : BitVec c.wPre) : BitVec c.wChk :=
  if cmd = .pair then c.chkPair.apply c.wChk p else c.chkCmd.apply c.wChk p

/-- `encode` of R130: the codeword of an identity and a command. -/
def encodeCodeword (c : Cfg) (id : Identity) (cmd : Cmd) : Except Status (BitVec c.wCw) :=
  match opcode c cmd with
  | .error e => .error e
  | .ok o => .ok (preChecksum c id o ++ checksum c cmd (preChecksum c id o))

/-- `sync_f` (R131). -/
def syncField (c : Cfg) (w : BitVec c.wCw) : BitVec c.wSync := w.extractLsb' (c.wId + c.wOp + c.wChk) c.wSync
/-- `id_f` (R131). -/
def idField (c : Cfg) (w : BitVec c.wCw) : BitVec c.wId := w.extractLsb' (c.wOp + c.wChk) c.wId
/-- `op_f` (R131). -/
def opField (c : Cfg) (w : BitVec c.wCw) : BitVec c.wOp := w.extractLsb' c.wChk c.wOp
/-- `chk_f` (R131). -/
def chkField (c : Cfg) (w : BitVec c.wCw) : BitVec c.wChk := w.extractLsb' 0 c.wChk
/-- `pre_f` (R131). -/
def preField (c : Cfg) (w : BitVec c.wCw) : BitVec c.wPre := w.extractLsb' c.wChk c.wPre

/-- `verify` (R131): the stored checksum equals the one recomputed from the other fields. -/
def verify (c : Cfg) (w : BitVec c.wCw) : Bool :=
  chkField c w ==
    if c.opcodeOf .pair = some (opField c w) then c.chkPair.apply c.wChk (preField c w)
    else c.chkCmd.apply c.wChk (preField c w)

/-- `bits_of` (R132): the bits of a field in on-air order. -/
def bitsOf (order : BitOrder) {n : Nat} (f : BitVec n) : List Bool :=
  match order with
  | .msbFirst => (List.range n).map f.getMsbD
  | .lsbFirst => (List.range n).map f.getLsbD

/-- `bitseq` (R132): the fields SYNC, ID, OP, CHK, each in `BIT_ORDER`. -/
def bitSequence (c : Cfg) (w : BitVec c.wCw) : List Bool :=
  bitsOf c.bitOrder (syncField c w) ++ bitsOf c.bitOrder (idField c w) ++ bitsOf c.bitOrder (opField c w)
    ++ bitsOf c.bitOrder (chkField c w)

end Sys2Proof.Machine
end

