-- ==== Sys2Proof/Machine/Frame.lean ====
section
/-! DEFINITION. The on-off-keyed frame builder (R150 to R160): symbols, frame, gap, repetition, the packet, its flat
form and the waveform it describes. -/
namespace Sys2Proof.Machine

/-- `rep(L, n)` (R9). -/
def rep {α : Type} (l : List α) : Nat → List α
  | 0 => []
  | n + 1 => l ++ rep l n

/-- `sym` (R150): the timing pair of one bit. -/
def symbol (c : Cfg) (b : Bool) : TimingPair := if b then c.t1 else c.t0

/-- `data` (R151). -/
def dataSymbols (c : Cfg) (w : BitVec c.wCw) : List TimingPair := (bitSequence c w).map (symbol c)

/-- `body` (R152). -/
def frameBody (c : Cfg) (w : BitVec c.wCw) : List TimingPair := c.preamble ++ dataSymbols c w ++ c.trailer

/-- A list of pairs with `gap` added to its final space (R153). `last` is defined for a non-empty list only (R9), and a
frame body is never empty (R152); the empty list stays empty (assumption 24). -/
def addGap (gap : Nat) (l : List TimingPair) : List TimingPair :=
  match l.getLast? with
  | some p => l.dropLast ++ [⟨p.mark, p.space + gap⟩]
  | none => []

/-- `unit` (R153): one copy of the frame with its gap. -/
def frameUnit (c : Cfg) (w : BitVec c.wCw) : List TimingPair := addGap c.gap (frameBody c w)

/-- `timings` (R154): `REPEAT` copies in all. -/
def frameTimings (c : Cfg) (w : BitVec c.wCw) : List TimingPair := rep (frameUnit c w) c.repeatCount

/-- `frame_build` (R156). -/
def frameBuild (c : Cfg) (w : BitVec c.wCw) : EncodedPacket where
  frame := frameUnit c w
  repeatCount := c.repeatCount
  timings := frameTimings c w
  carrierHz := c.carrierHz
  modulation := .ook
  timeUnit := c.timeUnit

/-- `txbuf` (R160): the packet serialised by the transport's function. -/
def transmitBuffer (c : Cfg) (p : EncodedPacket) : List Byte := Config.serialize c.serializer p

/-- `flat` (R157). -/
def flat : List TimingPair → List Nat
  | [] => []
  | p :: l => p.mark :: p.space :: flat l

/-- `dur` (R159). -/
def duration (l : List TimingPair) : Nat := (flat l).sum

/-- `S_i` of R158: the time at which element `i` of a flat sequence begins. -/
def startTime (f : List Nat) (i : Nat) : Nat := (f.take i).sum

/-- The waveform from time 0 on (R158): whether the carrier is on `t` units after the start. A mark is carrier-on time
(assumption 19). -/
def carrierAfterStart : List TimingPair → Nat → Bool
  | [], _ => false
  | p :: l, t =>
    if t < p.mark then true
    else if t < p.mark + p.space then false
    else carrierAfterStart l (t - (p.mark + p.space))

/-- The waveform a list of pairs describes (R158): whether the carrier is on at time `t`. It is off before time 0. -/
def carrierOn (l : List TimingPair) : Int → Bool
  | .ofNat t => carrierAfterStart l t
  | .negSucc _ => false

end Sys2Proof.Machine
end

