-- ==== Sys2Proof/Machine/Flags.lean ====
section
/-! DEFINITION. The status codes (R210) and the table of the statuses each request can write (R217). The block has no
flags or condition codes: `LAST.status` is its only status (R48). -/
namespace Sys2Proof

/-- The 4-bit code of a status (R210). -/
def Status.code : Status → BitVec 4
  | .ok => 0x0
  | .invalidIdentity => 0x1
  | .outOfRange => 0x2
  | .unknownPreset => 0x3
  | .encodingError => 0x4
  | .malformedRequest => 0x5
  | .deliveryError => 0x6

/-- The status of a code; `0x7` to `0xF` are reserved (R210). -/
def Status.ofCode? (v : BitVec 4) : Option Status :=
  match v.toNat with
  | 0 => some .ok
  | 1 => some .invalidIdentity
  | 2 => some .outOfRange
  | 3 => some .unknownPreset
  | 4 => some .encodingError
  | 5 => some .malformedRequest
  | 6 => some .deliveryError
  | _ => none

/-- The statuses the block itself writes (R210, R216). -/
def Status.writtenByBlock : Status → Bool
  | .deliveryError => false
  | _ => true

/-- The statuses a decoded request can write: the rows of R217 less the column MALFORMED_REQUEST, which only a request
that does not decode writes. -/
def Instr.statuses : Instr → List Status
  | .genId => [.ok]
  | .validateId _ => [.ok, .invalidIdentity]
  | .buildPair _ => [.ok, .invalidIdentity, .encodingError]
  | .setSpeed _ _ => [.ok, .invalidIdentity, .outOfRange, .encodingError]
  | .setDirection _ _ => [.ok, .invalidIdentity, .outOfRange, .encodingError]
  | .toggleLight _ => [.ok, .invalidIdentity, .encodingError]
  | .dimStep _ _ => [.ok, .invalidIdentity, .outOfRange, .encodingError]
  | .breezePreset _ _ => [.ok, .invalidIdentity, .unknownPreset, .encodingError]
  | .cmdPair _ => [.ok, .invalidIdentity, .encodingError]

end Sys2Proof
end

