-- ==== Sys2Proof/Machine/Operands.lean ====
section
/-! DEFINITION. The operand checks: the identity operand IDV (R76, R101) and the PARAM operand by variant
(R74, R120 to R126). -/
namespace Sys2Proof.Machine

/-- `validate_id` (R101). -/
def validateId (c : Cfg) (idv : Word) : Except Status Identity :=
  if 2 ^ 16 ≤ idv.toNat then .error .invalidIdentity
  else if 2 ^ min 16 c.wId ≤ idv.toNat then .error .invalidIdentity
  else if c.reservedIds.contains (idv.extractLsb' 0 16) then .error .invalidIdentity
  else .ok (idv.extractLsb' 0 16)

/-- PARAM as a speed level (R121). -/
def speedOperand (p : Byte) : Except Status Cmd :=
  if h : p.toNat < 10 then .ok (.setSpeed ⟨p.toNat, h⟩) else .error .outOfRange

/-- PARAM as a direction (R122): 0 forward, 1 reverse. -/
def directionOperand (p : Byte) : Except Status Cmd :=
  if p = 0 then .ok (.setDirection .fwd)
  else if p = 1 then .ok (.setDirection .rev)
  else .error .outOfRange

/-- PARAM as a dim direction (R124): 0 up, 1 down. -/
def dimOperand (p : Byte) : Except Status Cmd :=
  if p = 0 then .ok (.dimStep .up)
  else if p = 1 then .ok (.dimStep .down)
  else .error .outOfRange

/-- PARAM as a breeze preset id (R125). -/
def presetOperand (c : Cfg) (p : Byte) : Except Status Cmd :=
  if c.breezeIds.contains p then .ok (.breezePreset p) else .error .unknownPreset

/-- `validate_cmd` (R120). The decoder passes on the variants 0 to 5 only (R77); the last arm makes the function total
and no request reaches it (assumption 22). -/
def validateCmd (c : Cfg) (v : BitVec 4) (p : Byte) : Except Status Cmd :=
  match v.toNat with
  | 0 => speedOperand p
  | 1 => directionOperand p
  | 2 => .ok .toggleLight
  | 3 => dimOperand p
  | 4 => presetOperand c p
  | 5 => .ok .pair
  | _ => .error .malformedRequest

end Sys2Proof.Machine
end

