-- ==== Sys2Proof/Machine/Ops.lean ====
section
/-! DEFINITION. The shared operations over the state: writing the response latch (R46), error entry (R219), the entropy
draw (R102), and the host's moves on the port, the latch, reset and the configuration (R44, R46, R240, R242). -/
namespace Sys2Proof.Machine

/-- An error response: the status and nothing else (R45, R219). -/
def Response.error (e : Status) : Response := { status := e }

/-- The response of GEN_ID and VALIDATE_ID (R104, R105). -/
def Response.identity (v : Identity) : Response := { status := .ok, id := some v }

/-- `LAST <- some(resp)` (R46), which ends the request (R191): the port is idle again (R44). -/
def State.respond (s : State) (r : Response) : State := { s with port := none, last := some r }

/-- Error entry (R219): the latch takes the status alone, nothing else changes, and the request is over. There is no
return from error: the next request runs normally (R220). -/
def State.fail (s : State) (e : Status) : State := s.respond (Response.error e)

/-- The identity the next draw yields: free in `ValidIds` (R102; assumption 5). -/
def State.draw (s : State) : Identity := (Config.entropy s.cfg ⟨s.cfg.leastValidId⟩ s.ent).val

/-- The state with one draw consumed (R56). -/
def State.consumeDraw (s : State) : State := { s with ent := s.ent + 1 }

/-- The host presents a request (R44). The port takes one request at a time (R57), so a port with a request in progress
takes none (assumption 23, DEDUCED; what `serve` and `withFetchWord` do there is assumption 25). -/
def State.present (s : State) (r : Request) : Option State :=
  match s.port with
  | none => some { s with port := some r }
  | some _ => none

/-- The host reads the latch (R46, R245); reading changes nothing. R245 forbids the read while a request is in progress and
gives it no value. DESIGN CHOICE: with a request waiting in the port the read answers the response of the request before
it (assumption 29). -/
def State.latch (s : State) : Option Response := s.last

/-- The reset event (R240): the latch is emptied, a request in progress is abandoned without a response, `CFG` stays, and
`ENT` is left in an unspecified state (assumption 6). -/
def State.applyReset (s : State) : State :=
  { s with port := none, last := none, ent := Config.entropyAfterReset s.ent }

/-- Boot (R242): the block starts under a configuration record that passes `WF_CFG`; any other record is refused as a
whole (R229). -/
def State.boot (c : Cfg) : Host.Outcome State Fault Refusal :=
  if h : c.wf = true then .next { State.reset with cfg := ⟨c, h⟩ } else .refused .illFormedConfig

end Sys2Proof.Machine
end

