-- ==== Sys2Proof/Machine/Build.lean ====
section
/-! DEFINITION. The common build procedure (R180) and the seven build requests (R181 to R187). -/
namespace Sys2Proof.Machine

/-- `c_src` of R180: `Pair` for BUILD_PAIR, the decoded VARIANT and PARAM for BUILD_CMD. -/
inductive CmdSource where
  | pair
  | coded (variant : BitVec 4) (param : Byte)
  deriving DecidableEq, Repr

/-- The command of a source (R180, second step). -/
def CmdSource.command (c : Cfg) : CmdSource → Except Status Cmd
  | .pair => .ok .pair
  | .coded v p => validateCmd c v p

/-- The response that carries a codeword: the codeword, its packet and the transmit buffer (R45, R156, R160, R180). -/
def Response.packet (c : Cfg) (w : BitVec c.wCw) : Response where
  status := .ok
  cw := some ⟨c.wCw, w⟩
  pkt := some (frameBuild c w)
  txbuf := some (transmitBuffer c (frameBuild c w))

/-- `build` (R180): identity, then command, then codeword; the first failure is the response (R218). -/
def build (c : Cfg) (src : CmdSource) (idv : Word) : Response :=
  match validateId c idv with
  | .error e => Response.error e
  | .ok id =>
    match src.command c with
    | .error e => Response.error e
    | .ok cmd =>
      match encodeCodeword c id cmd with
      | .error e => Response.error e
      | .ok w => Response.packet c w

/-- BUILD_PAIR (R181). -/
def execBuildPair (idv : Word) (s : State) : Host.Outcome State Fault Refusal :=
  .next (s.respond (build s.cfg.raw .pair idv))

/-- BUILD_CMD.SET_SPEED (R182). -/
def execSetSpeed (p : Byte) (idv : Word) (s : State) : Host.Outcome State Fault Refusal :=
  .next (s.respond (build s.cfg.raw (.coded 0x0 p) idv))

/-- BUILD_CMD.SET_DIRECTION (R183). -/
def execSetDirection (p : Byte) (idv : Word) (s : State) : Host.Outcome State Fault Refusal :=
  .next (s.respond (build s.cfg.raw (.coded 0x1 p) idv))

/-- BUILD_CMD.TOGGLE_LIGHT (R184). -/
def execToggleLight (idv : Word) (s : State) : Host.Outcome State Fault Refusal :=
  .next (s.respond (build s.cfg.raw (.coded 0x2 0) idv))

/-- BUILD_CMD.DIM_STEP (R185). -/
def execDimStep (p : Byte) (idv : Word) (s : State) : Host.Outcome State Fault Refusal :=
  .next (s.respond (build s.cfg.raw (.coded 0x3 p) idv))

/-- BUILD_CMD.BREEZE_PRESET (R186). -/
def execBreezePreset (p : Byte) (idv : Word) (s : State) : Host.Outcome State Fault Refusal :=
  .next (s.respond (build s.cfg.raw (.coded 0x4 p) idv))

/-- BUILD_CMD.PAIR (R187). -/
def execCmdPair (idv : Word) (s : State) : Host.Outcome State Fault Refusal :=
  .next (s.respond (build s.cfg.raw (.coded 0x5 0) idv))

end Sys2Proof.Machine
end

