-- ==== Sys2Proof/Machine/Identity.lean ====
section
/-! DEFINITION. The identity requests GEN_ID (R104) and VALIDATE_ID (R105). -/
namespace Sys2Proof.Machine

/-- The response of VALIDATE_ID (R105). -/
def validateResponse (c : Cfg) (idv : Word) : Response :=
  match validateId c idv with
  | .ok v => Response.identity v
  | .error e => Response.error e

/-- GEN_ID (R104): one draw, and the drawn identity in the response. -/
def execGenId (s : State) : Host.Outcome State Fault Refusal :=
  .next (s.consumeDraw.respond (Response.identity s.draw))

/-- VALIDATE_ID (R105). -/
def execValidateId (idv : Word) (s : State) : Host.Outcome State Fault Refusal :=
  .next (s.respond (validateResponse s.cfg.raw idv))

end Sys2Proof.Machine
end

