-- ==== Sys2Proof/Machine/Dispatch.lean ====
section
/-! DEFINITION. The dispatch: one arm per constructor of `Instr`, each one call of its meaning (R190). -/
namespace Sys2Proof.Machine

def exec (i : Instr) (s : State) : Host.Outcome State Fault Refusal :=
  match i with
  | .genId => Sys2Proof.Machine.execGenId s
  | .validateId idv => Sys2Proof.Machine.execValidateId idv s
  | .buildPair idv => Sys2Proof.Machine.execBuildPair idv s
  | .setSpeed p idv => Sys2Proof.Machine.execSetSpeed p idv s
  | .setDirection p idv => Sys2Proof.Machine.execSetDirection p idv s
  | .toggleLight idv => Sys2Proof.Machine.execToggleLight idv s
  | .dimStep p idv => Sys2Proof.Machine.execDimStep p idv s
  | .breezePreset p idv => Sys2Proof.Machine.execBreezePreset p idv s
  | .cmdPair idv => Sys2Proof.Machine.execCmdPair idv s

end Sys2Proof.Machine
end

