-- ==== Sys2Proof/Machine/Step.lean ====
section
/-! DEFINITION. The request step (R190): the block's whole transition relation. -/
namespace Sys2Proof.Machine

/-- One step. With a request in the port the block decodes it and runs it, or reports it malformed (R77, R190, R219).
With the port idle nothing happens and the latch is held (R228; assumption 7). -/
def step (s : State) : Host.Outcome State Fault Refusal :=
  match s.port with
  | none => .next s
  | some r =>
    match decode r with
    | .ok i => exec i s
    | .error e => .next (s.fail e)

/-- The state with an instruction's word in the request port, so that the next step runs it: the host's presentation of
the request (R44; assumption 8). The host presents between requests only (D34). DESIGN CHOICE where a request already waits
in the port, on which the spec is silent: the word replaces it, and the waiting request is lost unanswered
(assumption 25). -/
def State.withFetchWord (s : State) (nbits w : Nat) : State := { s with port := some (requestOfTableWord nbits w) }

end Sys2Proof.Machine
end

