-- ==== Sys2Proof/Machine/Assembler.lean ====
section
/-! DEFINITION. The assembler and disassembler of the request port (R82 to R86) and the text form of an identity
(R84, R103). Texts are lists of characters. -/
namespace Sys2Proof.Machine

/-- A text. -/
abbrev Text := List Char

/-- One argument of a `cmd` line (R82, R85). -/
inductive CmdArg where
  | speed (n : Nat)
  | direction (d : Direction)
  | lightToggle
  | dim (d : DimDir)
  | breeze (n : Nat)
  | pair
  deriving DecidableEq, Repr

/-- The kinds of a `cmd` argument, in the source's argument order (R85). -/
inductive ArgKind where
  | speed
  | direction
  | lightToggle
  | dim
  | breeze
  | pair
  deriving DecidableEq, Repr

/-- An assembler line (R82). Identities and numbers are as written: their ranges are checked when the line is
assembled. -/
inductive AsmLine where
  | genId
  | validate (id : Nat)
  | pair (id : Nat)
  | cmd (id : Nat) (args : List CmdArg)
  | req (w v : Nat)
  deriving DecidableEq, Repr

/-- The assembler's errors: none of them produces a request (R82, R85). DESIGN CHOICE: the spec says what is an error and
names no kinds of errors; these kinds, and which one a line with several faults gives, are the model's (assumption 28). -/
inductive AsmError where
  /-- An `<id>` outside 0 to `2^32 - 1` (R82). Also a word of `req` outside that range: DESIGN CHOICE, since R82 names
  only `<n>` and `<id>` as refused (assumption 26). -/
  | wordRange
  /-- An `<n>` outside 0 to 255 (R82). -/
  | numberRange
  /-- `cmd <id>` with no argument (R85). -/
  | noArgument
  /-- An argument kind used twice (R85). -/
  | repeatedKind
  /-- A text that is no line of R82. -/
  | unreadable
  deriving DecidableEq, Repr

/-- The kind of an argument. -/
def CmdArg.kind : CmdArg → ArgKind
  | .speed _ => .speed
  | .direction _ => .direction
  | .lightToggle => .lightToggle
  | .dim _ => .dim
  | .breeze _ => .breeze
  | .pair => .pair

/-- The argument order of R85. -/
def argOrder : List ArgKind := [.speed, .direction, .lightToggle, .dim, .breeze, .pair]

/-- The number of an argument is within 8 bits (R82). -/
def CmdArg.inRange : CmdArg → Bool
  | .speed n => decide (n < 2 ^ 8)
  | .breeze n => decide (n < 2 ^ 8)
  | _ => true

/-- The instruction of one `cmd` argument (R82). -/
def CmdArg.instr (idv : Word) : CmdArg → Instr
  | .speed n => .setSpeed (BitVec.ofNat 8 n) idv
  | .direction .fwd => .setDirection 0 idv
  | .direction .rev => .setDirection 1 idv
  | .lightToggle => .toggleLight idv
  | .dim .up => .dimStep 0 idv
  | .dim .down => .dimStep 1 idv
  | .breeze n => .breezePreset (BitVec.ofNat 8 n) idv
  | .pair => .cmdPair idv

/-- The arguments of a line in the order of R85, whatever order the line used. -/
def orderArgs (args : List CmdArg) : List CmdArg := argOrder.flatMap fun k => args.filter fun a => a.kind == k

/-- The requests of a `cmd` line: one for each argument (R82, R85). DESIGN CHOICE: of several faults the first in the order
identity range, no argument, repeated kind, number range is reported (assumption 28). -/
def assembleCmd (id : Nat) (args : List CmdArg) : Except AsmError (List Request) :=
  if 2 ^ 32 ≤ id then .error .wordRange
  else if args.isEmpty then .error .noArgument
  else if !decide (args.map CmdArg.kind).Nodup then .error .repeatedKind
  else if !args.all CmdArg.inRange then .error .numberRange
  else .ok ((orderArgs args).map fun a => encode (a.instr (BitVec.ofNat 32 id)))

/-- The requests of a line (R82). DESIGN CHOICE: a word of `req` of `2^32` or more is an error and is not cut to 32 bits
(assumption 26). -/
def assemble : AsmLine → Except AsmError (List Request)
  | .genId => .ok [encode .genId]
  | .validate id => if id < 2 ^ 32 then .ok [encode (.validateId (BitVec.ofNat 32 id))] else .error .wordRange
  | .pair id => if id < 2 ^ 32 then .ok [encode (.buildPair (BitVec.ofNat 32 id))] else .error .wordRange
  | .cmd id args => assembleCmd id args
  | .req w v => if w < 2 ^ 32 ∧ v < 2 ^ 32 then .ok [⟨BitVec.ofNat 32 w, BitVec.ofNat 32 v⟩] else .error .wordRange

/-- The raw line of a request (R82). -/
def rawLine (r : Request) : AsmLine := .req r.req.toNat r.idv.toNat

/-- The line of a request (R83). A direction or dim PARAM above 1 has no spelling and prints as `req`. -/
def disassemble (r : Request) : AsmLine :=
  match decode r with
  | .error _ => rawLine r
  | .ok .genId => .genId
  | .ok (.validateId idv) => .validate idv.toNat
  | .ok (.buildPair idv) => .pair idv.toNat
  | .ok (.setSpeed p idv) => .cmd idv.toNat [.speed p.toNat]
  | .ok (.setDirection p idv) =>
    if p = 0 then .cmd idv.toNat [.direction .fwd]
    else if p = 1 then .cmd idv.toNat [.direction .rev]
    else rawLine r
  | .ok (.toggleLight idv) => .cmd idv.toNat [.lightToggle]
  | .ok (.dimStep p idv) =>
    if p = 0 then .cmd idv.toNat [.dim .up]
    else if p = 1 then .cmd idv.toNat [.dim .down]
    else rawLine r
  | .ok (.breezePreset p idv) => .cmd idv.toNat [.breeze p.toNat]
  | .ok (.cmdPair idv) => .cmd idv.toNat [.pair]

/-- The character of a digit below 16, upper case (R103). -/
def digitChar (d : Nat) : Char := if d < 10 then Char.ofNat (48 + d) else Char.ofNat (55 + d)

/-- The value of a digit in either case (R84). -/
def digitValue (ch : Char) : Option Nat :=
  let n := ch.toNat
  if 48 ≤ n ∧ n ≤ 57 then some (n - 48)
  else if 65 ≤ n ∧ n ≤ 70 then some (n - 55)
  else if 97 ≤ n ∧ n ≤ 102 then some (n - 87)
  else none

/-- The `k` low hexadecimal digits of a number, most significant first. -/
def hexDigits (k v : Nat) : Text := (List.range k).map fun i => digitChar (v / 16 ^ (k - 1 - i) % 16)

/-- A number in decimal, put before `acc`; `fuel` bounds the digits. -/
def decimalDigits : Nat → Nat → Text → Text
  | 0, _, acc => acc
  | fuel + 1, v, acc =>
    if v < 10 then digitChar v :: acc else decimalDigits fuel (v / 10) (digitChar (v % 10) :: acc)

/-- A number in decimal, without leading zeros. -/
def decimalText (v : Nat) : Text := decimalDigits (v + 1) v []

/-- The canonical text of an identity (R103): `0x` and exactly four upper-case digits. -/
def renderIdentity (v : Identity) : Text := ['0', 'x'] ++ hexDigits 4 v.toNat

/-- The text of an identity operand: as R103 when it has 16 bits, else with eight digits (assumption 17). -/
def idText (v : Nat) : Text := ['0', 'x'] ++ hexDigits (if v < 2 ^ 16 then 4 else 8) v

/-- The number a digit string denotes in a base, from the value `acc` of the digits before it. -/
def readDigits (base : Nat) : Text → Nat → Option Nat
  | [], acc => some acc
  | ch :: rest, acc =>
    match digitValue ch with
    | some d => if d < base then readDigits base rest (acc * base + d) else none
    | none => none

/-- A number: decimal, or `0x` and hexadecimal digits (R82). DESIGN CHOICE: of an `<n>` and of the words of `req`, whose
digits the spec does not fix as R84 does for an identity, the hexadecimal digits may be in either case and there may be
any number of them from one on (assumption 27). -/
def readNumber : Text → Option Nat
  | [] => none
  | ['0', 'x'] => none
  | '0' :: 'x' :: ds => readDigits 16 ds 0
  | ds => readDigits 10 ds 0

/-- An identity literal (R84): `0x` and 1 to 8 hexadecimal digits, or a decimal number below `2^32`. -/
def readIdLiteral (t : Text) : Option Nat :=
  match t with
  | '0' :: 'x' :: ds => if 1 ≤ ds.length ∧ ds.length ≤ 8 then readDigits 16 ds 0 else none
  | _ =>
    match readNumber t with
    | some v => if v < 2 ^ 32 then some v else none
    | none => none

def textGenId : Text := ['g', 'e', 'n', '-', 'i', 'd']
def textValidate : Text := ['v', 'a', 'l', 'i', 'd', 'a', 't', 'e']
def textPair : Text := ['p', 'a', 'i', 'r']
def textCmd : Text := ['c', 'm', 'd']
def textReq : Text := ['r', 'e', 'q']
def textSpeed : Text := ['s', 'p', 'e', 'e', 'd', '=']
def textBreeze : Text := ['b', 'r', 'e', 'e', 'z', 'e', '=']
def textForward : Text := ['d', 'i', 'r', 'e', 'c', 't', 'i', 'o', 'n', '=', 'f', 'o', 'r', 'w', 'a', 'r', 'd']
def textReverse : Text := ['d', 'i', 'r', 'e', 'c', 't', 'i', 'o', 'n', '=', 'r', 'e', 'v', 'e', 'r', 's', 'e']
def textLightToggle : Text := ['l', 'i', 'g', 'h', 't', '-', 't', 'o', 'g', 'g', 'l', 'e']
def textDimUp : Text := ['d', 'i', 'm', '=', 'u', 'p']
def textDimDown : Text := ['d', 'i', 'm', '=', 'd', 'o', 'w', 'n']

/-- The text of an argument (R82). -/
def CmdArg.text : CmdArg → Text
  | .speed n => textSpeed ++ decimalText n
  | .direction .fwd => textForward
  | .direction .rev => textReverse
  | .lightToggle => textLightToggle
  | .dim .up => textDimUp
  | .dim .down => textDimDown
  | .breeze n => textBreeze ++ decimalText n
  | .pair => textPair

/-- The text of a line (R82), one space after a keyword and after a comma (assumption 17). -/
def AsmLine.text : AsmLine → Text
  | .genId => textGenId
  | .validate id => textValidate ++ ' ' :: idText id
  | .pair id => textPair ++ ' ' :: idText id
  | .cmd id args => textCmd ++ ' ' :: idText id ++ args.flatMap fun a => ',' :: ' ' :: a.text
  | .req w v => textReq ++ ' ' :: '0' :: 'x' :: hexDigits 8 w ++ ',' :: ' ' :: '0' :: 'x' :: hexDigits 8 v

/-- What follows `lead` in a text that begins with it. -/
def afterText : Text → Text → Option Text
  | [], t => some t
  | _ :: _, [] => none
  | a :: lead, b :: t => if a = b then afterText lead t else none

/-- The pieces of a text between its commas. -/
def splitCommas : Text → List Text
  | [] => [[]]
  | ch :: rest =>
    if ch = ',' then [] :: splitCommas rest
    else
      match splitCommas rest with
      | [] => [[ch]]
      | piece :: pieces => (ch :: piece) :: pieces

/-- A text without the spaces at its ends (assumption 17). -/
def trimSpaces (t : Text) : Text := ((t.dropWhile (· == ' ')).reverse.dropWhile (· == ' ')).reverse

/-- The number after a fixed lead, such as `speed=`. -/
def numberAfter (lead t : Text) : Option Nat := (afterText lead t).bind readNumber

/-- An argument from its text (R82). -/
def readArg (t : Text) : Option CmdArg :=
  if t = textForward then some (.direction .fwd)
  else if t = textReverse then some (.direction .rev)
  else if t = textLightToggle then some .lightToggle
  else if t = textDimUp then some (.dim .up)
  else if t = textDimDown then some (.dim .down)
  else if t = textPair then some .pair
  else
    match numberAfter textSpeed t with
    | some n => some (.speed n)
    | none => (numberAfter textBreeze t).map .breeze

/-- The arguments of a `cmd` line, all of them or none. -/
def readArgs : List Text → Option (List CmdArg)
  | [] => some []
  | t :: ts =>
    match readArg t, readArgs ts with
    | some a, some as => some (a :: as)
    | _, _ => none

/-- A line from its keyword, the operand after it and the pieces after its commas (R82). -/
def readParts (keyword operand : Text) (rest : List Text) : Option AsmLine :=
  if keyword = textGenId then if operand.isEmpty && rest.isEmpty then some .genId else none
  else if keyword = textValidate then if rest.isEmpty then (readIdLiteral operand).map .validate else none
  else if keyword = textPair then if rest.isEmpty then (readIdLiteral operand).map .pair else none
  else if keyword = textCmd then
    match readIdLiteral operand, readArgs rest with
    | some id, some args => some (.cmd id args)
    | _, _ => none
  else if keyword = textReq then
    match readNumber operand, rest with
    | some w, [v] => (readNumber v).map (.req w)
    | _, _ => none
  else none

/-- A line from its text (R82). -/
def readLine (t : Text) : Option AsmLine :=
  match (splitCommas t).map trimSpaces with
  | [] => none
  | head :: rest => readParts (head.takeWhile (· != ' ')) (trimSpaces (head.dropWhile (· != ' '))) rest

/-- The requests of a line's text (R82, R85). DESIGN CHOICE: a text that is no line, an identity literal outside R84 among
the reasons, is `unreadable` before any other fault is looked for (assumption 28). -/
def assembleText (t : Text) : Except AsmError (List Request) :=
  match readLine t with
  | some l => assemble l
  | none => .error .unreadable

/-- The text of a request's line (R83). -/
def disassembleText (r : Request) : Text := (disassemble r).text

end Sys2Proof.Machine
end

