-- ==== Sys2Proof/Machine/Transact.lean ====
section
/-! DEFINITION. The host's use of the port: one transaction (R55) and a run, which is a finite sequence of requests
(R191). -/
namespace Sys2Proof.Machine

/-- One transaction: the host presents a request on the port and the block takes one step (R44, R55, R190). The host
presents between requests only (D34); from an idle port this is `State.present` followed by `step`. DESIGN CHOICE where a
request already waits in the port, on which the spec is silent: `r` replaces it, and the waiting request is lost without
writing `LAST` (assumption 25). -/
def serve (r : Request) (s : State) : Host.Outcome State Fault Refusal := step { s with port := some r }

/-- A run: the requests in order, each to its end (R57, R191). -/
def serveAll : List Request → State → Host.Outcome State Fault Refusal
  | [], s => .next s
  | r :: rs, s =>
    match serve r s with
    | .next t => serveAll rs t
    | .fault f => .fault f
    | .refused x => .refused x

end Sys2Proof.Machine
end

