-- ==== Sys2Proof/Safety.lean ====
section
/-! DEFINITION. What counts as a sound response and a safe state, in the terms the statements use. -/
namespace Sys2Proof.Machine

/-- The codeword of R79 for an identity and an opcode, with the checksum function that applies (R128 to R130). -/
def codewordOf (c : Cfg) (id : Identity) (o : BitVec c.wOp) (chk : Checksum) : BitVec c.wCw :=
  (c.syncVal ++ id.setWidth c.wId ++ o) ++ chk.apply c.wChk (c.syncVal ++ id.setWidth c.wId ++ o)

/-- The response that R180 gives a build request whose codeword is `w` (R45). -/
def packetResponse (c : Cfg) (w : BitVec c.wCw) : Response where
  status := .ok
  id := none
  cw := some ⟨c.wCw, w⟩
  pkt := some (frameBuild c w)
  txbuf := some (Config.serialize c.serializer (frameBuild c w))

/-- The state a request leaves: the latch holds `r`, the port is idle, `CFG` and `ENT` are as before (R190). -/
def State.answered (s : State) (r : Response) : State where
  cfg := s.cfg
  port := none
  last := some r
  ent := s.ent

/-- The 32-bit operand that spells an identity (`zext_32`, R106). -/
def idOperand (v : Identity) : Word := v.setWidth 32

/-- An identity operand that R211 rejects. -/
def BadIdentity (c : Cfg) (idv : Word) : Prop :=
  2 ^ 16 ≤ idv.toNat ∨ 2 ^ c.wId ≤ idv.toNat ∨ idv.extractLsb' 0 16 ∈ c.reservedIds

/-- A response that the block may have written (R45, R210, R219): an error status alone, a valid identity, or the packet of
a valid identity and a command of the configuration. -/
def Response.Sound (c : Cfg) (r : Response) : Prop :=
  (∃ e : Status, e ≠ .ok ∧ e ≠ .deliveryError ∧ r = { status := e })
  ∨ (∃ v : Identity, c.isValidId v = true ∧ r = { status := .ok, id := some v })
  ∨ (∃ (id : Identity) (cmd : Cmd) (o : BitVec c.wOp),
      c.isValidId id = true ∧ cmd ∈ c.commands ∧ c.opcodeOf cmd = some o
        ∧ r = packetResponse c (codewordOf c id o (if cmd = .pair then c.chkPair else c.chkCmd)))

/-- The invariant of the block: what the latch holds, if anything, is a sound response under the state's own
configuration. -/
def State.Inv (s : State) : Prop := ∀ r, s.last = some r → r.Sound s.cfg.raw

/-- A request that takes no draw (R56): it does not decode to GEN_ID. -/
def DrawsNothing (r : Request) : Prop := decode r ≠ .ok .genId

/-- The command a request asks for, when its PARAM is within its domain (R121 to R126). -/
def Commands (c : Cfg) : Instr → Cmd → Prop
  | .buildPair _, cmd => cmd = .pair
  | .setSpeed p _, cmd => ∃ l : Fin 10, p.toNat = l.val ∧ cmd = .setSpeed l
  | .setDirection p _, cmd => (p = 0 ∧ cmd = .setDirection .fwd) ∨ (p = 1 ∧ cmd = .setDirection .rev)
  | .toggleLight _, cmd => cmd = .toggleLight
  | .dimStep p _, cmd => (p = 0 ∧ cmd = .dimStep .up) ∨ (p = 1 ∧ cmd = .dimStep .down)
  | .breezePreset p _, cmd => p ∈ c.breezeIds ∧ cmd = .breezePreset p
  | .cmdPair _, cmd => cmd = .pair
  | .genId, _ => False
  | .validateId _, _ => False

/-- A PARAM that R212 rejects. -/
def BadRange : Instr → Prop
  | .setSpeed p _ => 9 < p.toNat
  | .setDirection p _ => 2 ≤ p.toNat
  | .dimStep p _ => 2 ≤ p.toNat
  | _ => False

/-- A PARAM that R213 rejects. -/
def BadPreset (c : Cfg) : Instr → Prop
  | .breezePreset p _ => p ∉ c.breezeIds
  | _ => False

/-- The identity operand of a request, if it has one (R76). -/
def identityOperand : Instr → Option Word
  | .genId => none
  | .validateId idv => some idv
  | .buildPair idv => some idv
  | .setSpeed _ idv => some idv
  | .setDirection _ idv => some idv
  | .toggleLight idv => some idv
  | .dimStep _ idv => some idv
  | .breezePreset _ idv => some idv
  | .cmdPair idv => some idv

end Sys2Proof.Machine
end

