-- ==== Sys2Proof/Certificates/Slice0/Obligations.lean ====
section
/-! DEFINITION. The statements for the provers. Each names the rule of spec/ it rests on. -/

open Sys2Proof Sys2Proof.Machine

/-! ### Reset, boot and configuration -/

/-- R46, R49: right after reset no response is valid, the port is idle and `CFG` is the configured record. -/
def Obligations.ResetLeavesLatchEmptyAndPortIdle : Prop :=
  State.reset.last = none ∧ State.reset.port = none ∧ State.reset.cfg = Config.configured

/-- R240: the reset event empties the latch, abandons a request in progress without a response and keeps `CFG`; the first
request after it is answered as it would be without the reset, and leaves the same latch and `CFG`. Where another request waits in
the port of the state without the reset, `serve` replaces it: the model's choice (assumption 25). -/
def Obligations.RequestAfterResetBehavesAsAnyLaterOne : Prop :=
  ∀ (s : State) (r : Request),
    s.applyReset.last = none ∧ s.applyReset.port = none ∧ s.applyReset.cfg = s.cfg ∧
    (DrawsNothing r → ∃ t u, serve r s.applyReset = .next t ∧ serve r s = .next u ∧ t.last = u.last ∧ t.cfg = u.cfg)

/-- R229, R242: a record that fails `WF_CFG` is refused as a whole, and any other boots with an empty latch and an idle
port. -/
def Obligations.BootRefusesExactlyIllFormedConfigurations : Prop :=
  ∀ c : Cfg,
    (c.wf = false → State.boot c = .refused .illFormedConfig) ∧
    (c.wf = true → ∃ t, State.boot c = .next t ∧ t.cfg.raw = c ∧ t.last = none ∧ t.port = none)

/-- R41: `WF_CFG` holds exactly when the twelve named conditions do. The last-but-one clause, on the final space plus
`GAP`, takes both symbols as possible last pairs where there is no trailer (assumption 10, the model's reading). -/
def Obligations.WellFormedConfigurationMeetsItsTwelveConditions : Prop :=
  ∀ c : Cfg, c.wf = true ↔
    1 ≤ c.wId ∧ 0 ∈ c.reservedIds ∧
    (∃ v : Identity, v.toNat < 2 ^ min 16 c.wId ∧ v ∉ c.reservedIds) ∧
    1 ≤ c.wOp ∧
    (∀ a ∈ c.commands, ∀ b ∈ c.commands, ∀ o, c.opcodeOf a = some o → c.opcodeOf b = some o → a = b) ∧
    c.breezeIds ≠ [] ∧ 1 ≤ c.wChk ∧ c.t0 ≠ c.t1 ∧
    (∀ p ∈ c.t0 :: c.t1 :: (c.preamble ++ c.trailer), 1 ≤ p.mark ∧ 1 ≤ p.space) ∧
    1 ≤ c.repeatCount ∧
    ((∀ p ∈ c.t0 :: c.t1 :: (c.preamble ++ c.trailer), p.mark < 2 ^ c.wDur ∧ p.space < 2 ^ c.wDur) ∧
      (c.trailer = [] → c.t0.space + c.gap < 2 ^ c.wDur ∧ c.t1.space + c.gap < 2 ^ c.wDur) ∧
      (∀ l p, c.trailer = l ++ [p] → p.space + c.gap < 2 ^ c.wDur)) ∧
    1 ≤ c.carrierHz ∧ c.modulation = .ook

/-! ### The request encoding -/

/-- R77, R82: decoding the request of an instruction gives the instruction back, for every operand value. -/
def Obligations.DecodeOfEncodeIsTheInstruction : Prop := ∀ i : Instr, decode (encode i) = .ok i

/-- R77, R83: a request that decodes is the request its instruction encodes to, so no bit of it is dropped. -/
def Obligations.EncodeOfDecodeIsTheRequest : Prop :=
  ∀ (r : Request) (i : Instr), decode r = .ok i → encode i = r

/-- R215, R219: exactly the requests with one of the six causes of R215 fail to decode, and such a request leaves the latch
with the status MALFORMED_REQUEST alone, `CFG` and `ENT` as they were. -/
def Obligations.MalformedRequestsAreExactlyTheSixCauses : Prop :=
  ∀ r : Request,
    let func := (r.req.extractLsb' 28 4).toNat
    let variant := (r.req.extractLsb' 24 4).toNat
    let cause :=
      ¬(1 ≤ func ∧ func ≤ 4) ∨ (func = 4 ∧ 6 ≤ variant) ∨ r.req.extractLsb' 0 16 ≠ 0 ∨
      (func ≠ 4 ∧ r.req.extractLsb' 16 12 ≠ 0) ∨ (func = 4 ∧ (variant = 2 ∨ variant = 5) ∧ r.req.extractLsb' 16 8 ≠ 0) ∨
      (func = 1 ∧ r.idv ≠ 0)
    (cause → ∀ s : State, s.port = some r → step s = .next (s.answered { status := .malformedRequest })) ∧
    (¬cause → ∃ i, decode r = .ok i)

/-- R71 to R73, R82: words written out from the encoding decode to the request they stand for. -/
def Obligations.SampleRequestWordsDecode : Prop :=
  decode ⟨0x10000000, 0⟩ = .ok .genId ∧
  decode ⟨0x20000000, 0x000015A9⟩ = .ok (.validateId 0x15A9) ∧
  decode ⟨0x30000000, 0x000015A9⟩ = .ok (.buildPair 0x15A9) ∧
  decode ⟨0x40050000, 0x000015A9⟩ = .ok (.setSpeed 5 0x15A9) ∧
  decode ⟨0x41010000, 0x000015A9⟩ = .ok (.setDirection 1 0x15A9) ∧
  decode ⟨0x42000000, 0x000015A9⟩ = .ok (.toggleLight 0x15A9) ∧
  decode ⟨0x43010000, 0x000015A9⟩ = .ok (.dimStep 1 0x15A9) ∧
  decode ⟨0x44020000, 0x000015A9⟩ = .ok (.breezePreset 2 0x15A9) ∧
  decode ⟨0x45000000, 0x000015A9⟩ = .ok (.cmdPair 0x15A9) ∧
  decode ⟨0x00000000, 0⟩ = .error .malformedRequest ∧
  decode ⟨0x42010000, 0x000015A9⟩ = .error .malformedRequest

/-- R190: a step with a request in the port that decodes runs the decoded instruction and nothing around it; a word of the
opcode table placed in the port runs the instruction the decoder reads from it (how it is placed is the model's:
assumptions 8 and 25). With the port idle the state stays
(assumption 7, the model's reading of R228). Presenting a request to an idle port and stepping serves it, and a busy port
takes no request (assumption 23, the model's reading of R57). -/
def Obligations.StepRunsTheDecodedRequest : Prop :=
  (∀ (s : State) (r : Request) (i : Instr), s.port = some r → decode r = .ok i → step s = exec i s) ∧
  (∀ (s : State) (nbits w : Nat) (i : Instr), decodeTableWord nbits w = some i →
    step (s.withFetchWord nbits w) = exec i (s.withFetchWord nbits w)) ∧
  (∀ s : State, s.port = none → step s = .next s) ∧
  (∀ (s : State) (r : Request), s.port = none → ∃ t, s.present r = some t ∧ step t = serve r s) ∧
  (∀ (s : State) (r waiting : Request), s.port = some waiting → s.present r = none)

/-! ### Identity -/

/-- R101: `validate_id` fails on a candidate of `2^16` or more, of `2^min(16, W_ID)` or more, or with reserved low bits,
and answers the low 16 bits otherwise. -/
def Obligations.ValidateIdRejectsExactlyBadCandidates : Prop :=
  ∀ (c : Cfg) (idv : Word),
    let bad := 2 ^ 16 ≤ idv.toNat ∨ 2 ^ min 16 c.wId ≤ idv.toNat ∨ idv.extractLsb' 0 16 ∈ c.reservedIds
    (bad → validateId c idv = .error .invalidIdentity) ∧ (¬bad → validateId c idv = .ok (idv.extractLsb' 0 16))

/-- R100, R101: the candidates `validate_id` accepts are exactly the zero-extended members of `ValidIds`. -/
def Obligations.ValidateIdAcceptsExactlyValidIds : Prop :=
  ∀ (c : Cfg) (idv : Word) (v : Identity),
    validateId c idv = .ok v ↔ (v.toNat < 2 ^ min 16 c.wId ∧ v ∉ c.reservedIds ∧ idv = v.setWidth 32)

/-- R104, R102, R56: GEN_ID completes in every state with some valid identity in the response, consumes one draw and
changes nothing else. (`ent`, the count of draws, is the model's field: assumption 5.) -/
def Obligations.GenIdReturnsAValidIdentity : Prop :=
  ∀ s : State, ∃ v : Identity, s.cfg.raw.isValidId v = true ∧
    exec .genId s =
      .next { cfg := s.cfg, port := none, last := some { status := .ok, id := some v }, ent := s.ent + 1 }

/-- R105: VALIDATE_ID answers OK with the identity for every valid identity, and INVALID_IDENTITY alone for every operand
too wide or reserved; nothing else changes. -/
def Obligations.ValidateIdAnswersOkOrInvalid : Prop :=
  ∀ s : State,
    (∀ v : Identity, s.cfg.raw.isValidId v = true →
      exec (.validateId (idOperand v)) s = .next (s.answered { status := .ok, id := some v })) ∧
    (∀ idv : Word, BadIdentity s.cfg.raw idv →
      exec (.validateId idv) s = .next (s.answered { status := .invalidIdentity }))

/-- R106: an identity that GEN_ID returned passes VALIDATE_ID in any state of the same configuration, and it is no
reserved value, in particular not 0. -/
def Obligations.GeneratedIdentitiesValidate : Prop :=
  ∀ (s t u : State) (r : Response) (v : Identity),
    exec .genId s = .next t → t.last = some r → r.id = some v → u.cfg = s.cfg →
    exec (.validateId (idOperand v)) u = .next (u.answered { status := .ok, id := some v }) ∧
      v ∉ s.cfg.raw.reservedIds ∧ v ≠ 0

/-! ### The build requests: results -/

/-- R181: BUILD_PAIR with a valid identity and an opcode for `Pair` answers the pairing codeword, checked with `CHK_PAIR`,
its packet and its transmit buffer; nothing else changes. -/
def Obligations.BuildPairWritesThePairingPacket : Prop :=
  ∀ (s : State) (v : Identity) (o : BitVec s.cfg.raw.wOp),
    s.cfg.raw.isValidId v = true → s.cfg.raw.opcodeOf .pair = some o →
    exec (.buildPair (idOperand v)) s =
      .next (s.answered (packetResponse s.cfg.raw (codewordOf s.cfg.raw v o s.cfg.raw.chkPair)))

/-- R182: SET_SPEED with a level 0 to 9 answers the packet of `SetSpeed(level)`; nothing else changes. -/
def Obligations.SetSpeedWritesTheSpeedPacket : Prop :=
  ∀ (s : State) (v : Identity) (level : Fin 10) (o : BitVec s.cfg.raw.wOp),
    s.cfg.raw.isValidId v = true → s.cfg.raw.opcodeOf (.setSpeed level) = some o →
    exec (.setSpeed (BitVec.ofNat 8 level.val) (idOperand v)) s =
      .next (s.answered (packetResponse s.cfg.raw (codewordOf s.cfg.raw v o s.cfg.raw.chkCmd)))

/-- R183: SET_DIRECTION with PARAM 0 answers the packet of forward and with PARAM 1 that of reverse; nothing else
changes. -/
def Obligations.SetDirectionWritesTheDirectionPacket : Prop :=
  ∀ (s : State) (v : Identity) (d : Direction) (o : BitVec s.cfg.raw.wOp),
    s.cfg.raw.isValidId v = true → s.cfg.raw.opcodeOf (.setDirection d) = some o →
    exec (.setDirection (match d with | .fwd => 0 | .rev => 1) (idOperand v)) s =
      .next (s.answered (packetResponse s.cfg.raw (codewordOf s.cfg.raw v o s.cfg.raw.chkCmd)))

/-- R184: TOGGLE_LIGHT answers the packet of `ToggleLight`; nothing else changes. -/
def Obligations.ToggleLightWritesTheLightPacket : Prop :=
  ∀ (s : State) (v : Identity) (o : BitVec s.cfg.raw.wOp),
    s.cfg.raw.isValidId v = true → s.cfg.raw.opcodeOf .toggleLight = some o →
    exec (.toggleLight (idOperand v)) s =
      .next (s.answered (packetResponse s.cfg.raw (codewordOf s.cfg.raw v o s.cfg.raw.chkCmd)))

/-- R185: DIM_STEP with PARAM 0 answers the packet of up and with PARAM 1 that of down; nothing else changes. -/
def Obligations.DimStepWritesTheDimPacket : Prop :=
  ∀ (s : State) (v : Identity) (d : DimDir) (o : BitVec s.cfg.raw.wOp),
    s.cfg.raw.isValidId v = true → s.cfg.raw.opcodeOf (.dimStep d) = some o →
    exec (.dimStep (match d with | .up => 0 | .down => 1) (idOperand v)) s =
      .next (s.answered (packetResponse s.cfg.raw (codewordOf s.cfg.raw v o s.cfg.raw.chkCmd)))

/-- R186: BREEZE_PRESET with a PARAM in `BREEZE_IDS` answers the packet of that preset; nothing else changes. -/
def Obligations.BreezePresetWritesThePresetPacket : Prop :=
  ∀ (s : State) (v : Identity) (p : Byte) (o : BitVec s.cfg.raw.wOp),
    s.cfg.raw.isValidId v = true → p ∈ s.cfg.raw.breezeIds → s.cfg.raw.opcodeOf (.breezePreset p) = some o →
    exec (.breezePreset p (idOperand v)) s =
      .next (s.answered (packetResponse s.cfg.raw (codewordOf s.cfg.raw v o s.cfg.raw.chkCmd)))

/-- R187: CMD_PAIR answers the pairing packet, checked with `CHK_PAIR`; nothing else changes. -/
def Obligations.CmdPairWritesThePairingPacket : Prop :=
  ∀ (s : State) (v : Identity) (o : BitVec s.cfg.raw.wOp),
    s.cfg.raw.isValidId v = true → s.cfg.raw.opcodeOf .pair = some o →
    exec (.cmdPair (idOperand v)) s =
      .next (s.answered (packetResponse s.cfg.raw (codewordOf s.cfg.raw v o s.cfg.raw.chkPair)))

/-- R188: the two spellings of the pairing request are answered alike in every state, for every `IDV`. Where another
request waits in the port, `serve` replaces it: the model's choice (assumption 25). -/
def Obligations.PairSpellingsAreAnsweredAlike : Prop :=
  ∀ (idv : Word) (s : State), serve ⟨0x30000000, idv⟩ s = serve ⟨0x45000000, idv⟩ s

/-! ### The build requests: errors -/

/-- R211: an identity operand too wide or reserved makes VALIDATE_ID and every build request answer INVALID_IDENTITY
alone, whatever its PARAM; nothing else changes. -/
def Obligations.BadIdentityIsReportedByEveryRequestWithOne : Prop :=
  ∀ (s : State) (i : Instr) (idv : Word),
    identityOperand i = some idv → BadIdentity s.cfg.raw idv →
    exec i s = .next (s.answered { status := .invalidIdentity })

/-- R212: with a valid identity, SET_SPEED with PARAM above 9, SET_DIRECTION and DIM_STEP with PARAM of 2 or more answer
OUT_OF_RANGE alone. -/
def Obligations.OutOfRangeParametersAreReported : Prop :=
  ∀ (s : State) (v : Identity) (p : Byte), s.cfg.raw.isValidId v = true →
    (9 < p.toNat → exec (.setSpeed p (idOperand v)) s = .next (s.answered { status := .outOfRange })) ∧
    (2 ≤ p.toNat → exec (.setDirection p (idOperand v)) s = .next (s.answered { status := .outOfRange })) ∧
    (2 ≤ p.toNat → exec (.dimStep p (idOperand v)) s = .next (s.answered { status := .outOfRange }))

/-- R213: with a valid identity, BREEZE_PRESET with a PARAM outside `BREEZE_IDS` answers UNKNOWN_PRESET alone. -/
def Obligations.UnknownPresetsAreReported : Prop :=
  ∀ (s : State) (v : Identity) (p : Byte), s.cfg.raw.isValidId v = true → p ∉ s.cfg.raw.breezeIds →
    exec (.breezePreset p (idOperand v)) s = .next (s.answered { status := .unknownPreset })

/-- R214: a build request with a valid identity and a valid command that `OPC` does not define answers ENCODING_ERROR
alone; a request that answers it has a valid identity and a valid command that `OPC` does not define; so where `OPC` defines
every command, no request answers it. -/
def Obligations.EncodingErrorExactlyForCommandsWithoutOpcode : Prop :=
  ∀ s : State,
    (∀ (i : Instr) (v : Identity) (cmd : Cmd), identityOperand i = some (idOperand v) → s.cfg.raw.isValidId v = true →
      Commands s.cfg.raw i cmd → s.cfg.raw.opcodeOf cmd = none →
      exec i s = .next (s.answered { status := .encodingError })) ∧
    ((∀ cmd ∈ s.cfg.raw.commands, s.cfg.raw.opcodeOf cmd ≠ none) →
      ∀ (r : Request) (t : State) (resp : Response), s.port = some r → step s = .next t → t.last = some resp →
        resp.status ≠ .encodingError) ∧
    (∀ (r : Request) (t : State) (resp : Response), s.port = some r → step s = .next t → t.last = some resp →
      resp.status = .encodingError → ∃ (i : Instr) (v : Identity) (cmd : Cmd),
        decode r = .ok i ∧ identityOperand i = some (idOperand v) ∧ s.cfg.raw.isValidId v = true ∧
          Commands s.cfg.raw i cmd ∧ s.cfg.raw.opcodeOf cmd = none)

/-- R218: of several errors of one request the first in the order MALFORMED_REQUEST, INVALID_IDENTITY, OUT_OF_RANGE or
UNKNOWN_PRESET, ENCODING_ERROR is reported, a request with none of them answers OK, and the two parameter errors never
apply together. -/
def Obligations.ErrorsAreReportedInPriorityOrder : Prop :=
  ∀ (r : Request) (s : State), s.port = some r → ∃ t resp, step s = .next t ∧ t.last = some resp ∧
    (∀ e, decode r = .error e → resp.status = .malformedRequest) ∧
    ∀ i, decode r = .ok i →
      ¬(BadRange i ∧ BadPreset s.cfg.raw i) ∧
      ((∃ idv, identityOperand i = some idv ∧ BadIdentity s.cfg.raw idv) → resp.status = .invalidIdentity) ∧
      ((∀ idv, identityOperand i = some idv → ¬BadIdentity s.cfg.raw idv) →
        (BadRange i → resp.status = .outOfRange) ∧
        (BadPreset s.cfg.raw i → resp.status = .unknownPreset) ∧
        (¬BadRange i → ¬BadPreset s.cfg.raw i →
          ((∃ cmd, Commands s.cfg.raw i cmd ∧ s.cfg.raw.opcodeOf cmd = none) → resp.status = .encodingError) ∧
          ((∀ cmd, Commands s.cfg.raw i cmd → s.cfg.raw.opcodeOf cmd ≠ none) → resp.status = .ok)))

/-- R217: no request writes a status outside its row of the table. -/
def Obligations.StatusesStayInTheTableOfTheRequest : Prop :=
  ∀ (i : Instr) (s t : State), exec i s = .next t → ∃ resp, t.last = some resp ∧ resp.status ∈ i.statuses

/-- R45, R219: a request that fails leaves the status alone in the response, and the state is as before but for the latch
and the port, which is idle again: no draw is consumed. -/
def Obligations.FailedRequestsLeaveTheStatusAlone : Prop :=
  ∀ (r : Request) (s t : State) (resp : Response),
    s.port = some r → step s = .next t → t.last = some resp → resp.status ≠ .ok →
    resp = { status := resp.status, id := none, cw := none, pkt := none, txbuf := none } ∧
      t = { cfg := s.cfg, port := none, last := some resp, ent := s.ent }

/-- R120 to R126: PARAM is validated by variant: levels 0 to 9, two directions, two dim directions, the presets of
`BREEZE_IDS`; the light toggle and pairing have no parameter to fail. -/
def Obligations.ParametersAreValidatedByVariant : Prop :=
  ∀ (c : Cfg) (p : Byte),
    (∀ level : Fin 10, p.toNat = level.val → validateCmd c 0 p = .ok (.setSpeed level)) ∧
    (9 < p.toNat → validateCmd c 0 p = .error .outOfRange) ∧
    (p.toNat = 0 → validateCmd c 1 p = .ok (.setDirection .fwd)) ∧
    (p.toNat = 1 → validateCmd c 1 p = .ok (.setDirection .rev)) ∧
    (2 ≤ p.toNat → validateCmd c 1 p = .error .outOfRange) ∧
    validateCmd c 2 p = .ok .toggleLight ∧
    (p.toNat = 0 → validateCmd c 3 p = .ok (.dimStep .up)) ∧
    (p.toNat = 1 → validateCmd c 3 p = .ok (.dimStep .down)) ∧
    (2 ≤ p.toNat → validateCmd c 3 p = .error .outOfRange) ∧
    (p ∈ c.breezeIds → validateCmd c 4 p = .ok (.breezePreset p)) ∧
    (p ∉ c.breezeIds → validateCmd c 4 p = .error .unknownPreset) ∧
    validateCmd c 5 p = .ok .pair

/-! ### Requests and runs -/

/-- R190: whatever request runs, `CFG` stays, the latch is written, the port is idle again, and only GEN_ID takes a draw.
(`ent` is the model's field: assumption 5.) -/
def Obligations.RequestsWriteOnlyTheLatch : Prop :=
  ∀ (i : Instr) (s t : State), exec i s = .next t →
    t.cfg = s.cfg ∧ t.port = none ∧ (∃ resp, t.last = some resp) ∧
      (i ≠ .genId → t.ent = s.ent) ∧ (i = .genId → t.ent = s.ent + 1)

/-- R189, R191: every step with a request in the port answers a next state with the port idle, and every run of any length
ends in a state. The model's choices: a step with the port idle answers a next state too (assumption 7), and a request
waiting in the port when a run begins is replaced (assumption 25). -/
def Obligations.EveryRequestAndEveryRunEnds : Prop :=
  (∀ s : State, ∃ t, step s = .next t ∧ t.port = none) ∧
  (∀ (rs : List Request) (s : State), ∃ t, serveAll rs s = .next t ∧ t.cfg = s.cfg)

/-- R57, R220, R226: the response to a request other than GEN_ID depends on the request and `CFG` alone: after any two
histories, in any two blocks of one configuration, the latch holds the same response. That a request left waiting in the
port has no influence is the model's choice: the served one replaces it (assumption 25). -/
def Obligations.ResponsesDependOnRequestAndConfigurationAlone : Prop :=
  ∀ (before before' : List Request) (r : Request) (s s' t t' : State),
    s.cfg = s'.cfg → DrawsNothing r →
    serveAll (before ++ [r]) s = .next t → serveAll (before' ++ [r]) s' = .next t' → t.last = t'.last

/-- R56: a request other than GEN_ID is idempotent. Where another request waits in the port at first, `serve` replaces it:
the model's choice (assumption 25). -/
def Obligations.RequestsWithoutDrawsAreIdempotent : Prop :=
  ∀ (r : Request) (s t u : State), DrawsNothing r → serve r s = .next t → serve r t = .next u → u = t

/-- R60: two callers' requests other than GEN_ID get the same responses in either order. Where a third request waits in the
port at first, `serve` replaces it: the model's choice (assumption 25). -/
def Obligations.OrderOfCallersDoesNotChangeResponses : Prop :=
  ∀ (q r : Request) (s a b c d : State), DrawsNothing q → DrawsNothing r →
    serve q s = .next a → serve r a = .next b → serve r s = .next c → serve q c = .next d →
    a.last = d.last ∧ b.last = c.last

/-- R45, R102, R219, R180: every step keeps the invariant that the latch holds nothing but a sound response. -/
def Obligations.EveryStepKeepsSoundResponses : Prop :=
  ∀ s t : State, s.Inv → step s = .next t → t.Inv

/-- The invariant of `EveryStepKeepsSoundResponses` holds at reset (R46, R49). -/
def Obligations.ResetHoldsNoUnsoundResponse : Prop := State.reset.Inv

/-- R155, R160, R42: where the latch is sound, a packet in it is the one `frame_build` makes from the codeword beside it,
its timings are its frame repeated `REPEAT` times, it carries the configured carrier with OOK, and the buffer is its
serialisation. -/
def Obligations.PacketsInTheLatchAgreeWithTheirCodeword : Prop :=
  ∀ (s : State) (r : Response) (p : EncodedPacket), s.Inv → s.last = some r → r.pkt = some p →
    (∃ w : BitVec s.cfg.raw.wCw, r.cw = some ⟨s.cfg.raw.wCw, w⟩ ∧ p = frameBuild s.cfg.raw w) ∧
    p.timings = rep p.frame p.repeatCount ∧ p.repeatCount = s.cfg.raw.repeatCount ∧
    p.carrierHz = s.cfg.raw.carrierHz ∧ p.modulation = .ook ∧ p.timeUnit = s.cfg.raw.timeUnit ∧
    r.txbuf = some (Config.serialize s.cfg.raw.serializer p)

/-! ### The payload encoder -/

/-- R127: encoding fails exactly when `OPC` gives the command no opcode, and then with ENCODING_ERROR. -/
def Obligations.EncodingFailsExactlyWithoutAnOpcode : Prop :=
  ∀ (c : Cfg) (id : Identity) (cmd : Cmd),
    (c.opcodeOf cmd = none → encodeCodeword c id cmd = .error .encodingError) ∧
    (c.opcodeOf cmd ≠ none → ∃ w, encodeCodeword c id cmd = .ok w)

/-- R79, R128 to R131: the fields of an encoded codeword, extracted, are SYNC_VAL, the zero-extended identity, the
command's opcode and the checksum of the three fields before it, by `CHK_PAIR` for `Pair` and by `CHK_CMD` otherwise. -/
def Obligations.CodewordFieldsHoldTheirContents : Prop :=
  ∀ (c : Cfg) (id : Identity) (cmd : Cmd) (w : BitVec c.wCw), encodeCodeword c id cmd = .ok w →
    syncField c w = c.syncVal ∧ idField c w = id.setWidth c.wId ∧ c.opcodeOf cmd = some (opField c w) ∧
    preField c w = syncField c w ++ idField c w ++ opField c w ∧
    chkField c w = (if cmd = .pair then c.chkPair else c.chkCmd).apply c.wChk (preField c w)

/-- R137: the checksum of an encoded codeword, recomputed from its other fields, is the stored one. -/
def Obligations.ChecksumRoundTrips : Prop :=
  ∀ (c : Config) (id : Identity) (cmd : Cmd) (w : BitVec c.raw.wCw), cmd ∈ c.raw.commands →
    encodeCodeword c.raw id cmd = .ok w → verify c.raw w = true

/-- R138: the identity field of an encoded codeword gives back the identity. -/
def Obligations.IdentityFieldRoundTrips : Prop :=
  ∀ (c : Cfg) (id : Identity) (cmd : Cmd) (w : BitVec c.wCw), c.isValidId id = true →
    encodeCodeword c id cmd = .ok w → (idField c w).setWidth 16 = id

/-- R139: for one identity, the pairing codeword and a command's codeword have the same SYNC and ID fields, and their
opcode fields differ. -/
def Obligations.PairingDiffersFromCommandsInTheOpcode : Prop :=
  ∀ (c : Config) (id : Identity) (cmd : Cmd) (wp wc : BitVec c.raw.wCw), cmd ∈ c.raw.commands → cmd ≠ .pair →
    encodeCodeword c.raw id .pair = .ok wp → encodeCodeword c.raw id cmd = .ok wc →
    syncField c.raw wp = syncField c.raw wc ∧ idField c.raw wp = idField c.raw wc ∧
      c.raw.opcodeOf .pair = some (opField c.raw wp) ∧ opField c.raw wp ≠ opField c.raw wc

/-- R140: a codeword determines the identity and the command it was made from. -/
def Obligations.CodewordsDetermineIdentityAndCommand : Prop :=
  ∀ (c : Config) (id1 id2 : Identity) (cmd1 cmd2 : Cmd) (w : BitVec c.raw.wCw),
    c.raw.isValidId id1 = true → c.raw.isValidId id2 = true → cmd1 ∈ c.raw.commands → cmd2 ∈ c.raw.commands →
    encodeCodeword c.raw id1 cmd1 = .ok w → encodeCodeword c.raw id2 cmd2 = .ok w → id1 = id2 ∧ cmd1 = cmd2

/-- R132, R151: the on-air sequence has `W_CW` bits; most significant first it is the codeword's bits from the top, and
least significant first each field's bits from the bottom, the fields in the order SYNC, ID, OP, CHK. -/
def Obligations.OnAirBitsFollowTheFieldAndBitOrder : Prop :=
  ∀ (c : Cfg) (w : BitVec c.wCw),
    (bitSequence c w).length = c.wCw ∧
    (c.bitOrder = .msbFirst → bitSequence c w = (List.range c.wCw).map w.getMsbD) ∧
    (c.bitOrder = .lsbFirst → bitSequence c w =
      (List.range c.wSync).map (fun k => w.getLsbD (c.wId + c.wOp + c.wChk + k))
        ++ (List.range c.wId).map (fun k => w.getLsbD (c.wOp + c.wChk + k))
        ++ (List.range c.wOp).map (fun k => w.getLsbD (c.wChk + k))
        ++ (List.range c.wChk).map (fun k => w.getLsbD k))

/-- R133 to R135: each group is the slice R133 names; the sum is taken over the naturals and reduced modulo `2^g`; bit `i`
of the exclusive-or candidate is the parity of the groups' bits `i`; both candidates are 0 on 0, do not depend on zero
padding and are commutative in the groups. -/
def Obligations.CandidateChecksumsObeyTheirLaws : Prop :=
  ∀ (n k g : Nat) (p q : BitVec n),
    (∀ j, (checksumGroup g j p).toNat = p.toNat / 2 ^ (j * g) % 2 ^ g ∨ (n + g - 1) / g ≤ j) ∧
    (chkSum g p).toNat = ((checksumGroups g p).map BitVec.toNat).sum % 2 ^ g ∧
    (∀ i, (chkXor g p).getLsbD i = (((checksumGroups g p).countP fun b => b.getLsbD i) % 2 == 1)) ∧
    chkSum g (0 : BitVec n) = 0 ∧ chkXor g (0 : BitVec n) = 0 ∧
    chkSum g (p.setWidth (n + k)) = chkSum g p ∧ chkXor g (p.setWidth (n + k)) = chkXor g p ∧
    ((checksumGroups g p).Perm (checksumGroups g q) → chkSum g p = chkSum g q ∧ chkXor g p = chkXor g q)

/-- R30, R31: every total function from `n` bits to `g` bits is a checksum that a configuration can name (assumption 3
says how), so a statement for every configuration is one for every checksum function. -/
def Obligations.EveryChecksumFunctionIsConfigurable : Prop :=
  ∀ (n g : Nat) (f : BitVec n → BitVec g), ∃ k : Checksum, ∀ p : BitVec n, k.apply g p = f p

/-! ### The frame builder -/

/-- R153: the unit is the body with `GAP` added to its final space and nothing else changed. -/
def Obligations.UnitIsTheBodyWithGapOnItsFinalSpace : Prop :=
  ∀ (c : Config) (w : BitVec c.raw.wCw), ∃ l p,
    c.raw.preamble ++ (bitSequence c.raw w).map (fun b => if b then c.raw.t1 else c.raw.t0) ++ c.raw.trailer = l ++ [p] ∧
      frameUnit c.raw w = l ++ [⟨p.mark, p.space + c.raw.gap⟩]

/-- R159: the sizes and durations of the data, the unit and the packet. -/
def Obligations.FrameSizesAndDurations : Prop :=
  ∀ (c : Config) (w : BitVec c.raw.wCw),
    let k1 := (bitSequence c.raw w).count true
    (frameUnit c.raw w).length = c.raw.preamble.length + c.raw.wCw + c.raw.trailer.length ∧
    (frameTimings c.raw w).length = c.raw.repeatCount * (frameUnit c.raw w).length ∧
    duration (dataSymbols c.raw w) =
      k1 * (c.raw.t1.mark + c.raw.t1.space) + (c.raw.wCw - k1) * (c.raw.t0.mark + c.raw.t0.space) ∧
    duration (frameUnit c.raw w) =
      duration c.raw.preamble + duration (dataSymbols c.raw w) + duration c.raw.trailer + c.raw.gap ∧
    duration (frameTimings c.raw w) = c.raw.repeatCount * duration (frameUnit c.raw w)

/-- R161: `N` packets for one codeword, one after the other, are the unit repeated `N * REPEAT` times. -/
def Obligations.RepeatedPacketsAreOneLongerRepetition : Prop :=
  ∀ (c : Cfg) (w : BitVec c.wCw) (n : Nat), rep (frameTimings c w) n = rep (frameUnit c w) (n * c.repeatCount)

/-- R163: the data pairs stand at positions `length(PREAMBLE)` to `length(PREAMBLE) + W_CW - 1` of the unit (the last with
`GAP` on its space where there is no trailer), and the unit determines the codeword. -/
def Obligations.CodewordIsRecoverableFromTheUnit : Prop :=
  ∀ (c : Config) (w : BitVec c.raw.wCw),
    let dataPairs := ((frameUnit c.raw w).drop c.raw.preamble.length).take c.raw.wCw
    (c.raw.trailer ≠ [] → dataPairs = (bitSequence c.raw w).map (symbol c.raw)) ∧
    (c.raw.trailer = [] → ∃ l p, (bitSequence c.raw w).map (symbol c.raw) = l ++ [p] ∧
      dataPairs = l ++ [⟨p.mark, p.space + c.raw.gap⟩]) ∧
    ∀ w' : BitVec c.raw.wCw, frameUnit c.raw w = frameUnit c.raw w' → w = w'

/-- R39, R41: every duration of a packet, the final space with its gap included, is at least 1 and below `2^W_DUR`. -/
def Obligations.EmittedDurationsFit : Prop :=
  ∀ (c : Config) (w : BitVec c.raw.wCw), ∀ p ∈ (frameBuild c.raw w).timings,
    1 ≤ p.mark ∧ p.mark < 2 ^ c.raw.wDur ∧ 1 ≤ p.space ∧ p.space < 2 ^ c.raw.wDur

/-- R157: the flat form has twice the length, marks at even and spaces at odd positions, and determines the pairs. -/
def Obligations.FlatFormIsFaithful : Prop :=
  ∀ l : List TimingPair,
    (flat l).length = 2 * l.length ∧
    (∀ (k : Nat) (p : TimingPair), l[k]? = some p →
      (flat l)[2 * k]? = some p.mark ∧ (flat l)[2 * k + 1]? = some p.space) ∧
    ∀ m : List TimingPair, flat l = flat m → l = m

/-- R158 (the spec's reading from general knowledge, which the model follows: assumption 19): the carrier is on exactly
during the marks; it is off during the spaces, before time 0 and from the end on. -/
def Obligations.CarrierIsOnExactlyDuringMarks : Prop :=
  ∀ (l : List TimingPair) (t : Int),
    (carrierOn l t = true ↔
      ∃ k, k < l.length ∧ (startTime (flat l) (2 * k) : Int) ≤ t ∧ t < (startTime (flat l) (2 * k + 1) : Int)) ∧
    (∀ k, k < l.length → (startTime (flat l) (2 * k + 1) : Int) ≤ t → t < (startTime (flat l) (2 * k + 2) : Int) →
      carrierOn l t = false) ∧
    (t < 0 → carrierOn l t = false) ∧
    ((startTime (flat l) (flat l).length : Int) ≤ t → carrierOn l t = false)

/-! ### The assembler -/

/-- R82, R83: the line a request disassembles to assembles to that request. -/
def Obligations.DisassembledRequestsReassemble : Prop :=
  ∀ r : Request, assemble (disassemble r) = .ok [r]

/-- R82 to R84: the text a request disassembles to, read and assembled, is that request. (The spacing and the digits of a
printed number are the model's: assumption 17.) -/
def Obligations.DisassembledTextReassembles : Prop :=
  ∀ r : Request, assembleText (disassembleText r) = .ok [r]

/-- R85: a `cmd` line of several arguments, each kind at most once and each number in range, gives one request for each
argument, the same ones in the same order whatever order the line used; a line with none or with a repeated kind is an
error. Which error, and that a repeated kind is reported before a number out of range, is the model's choice
(assumption 28). -/
def Obligations.MultiArgumentLinesExpandInSourceOrder : Prop :=
  ∀ (id : Nat) (args args' : List CmdArg), id < 2 ^ 32 →
    (assemble (.cmd id []) = .error .noArgument) ∧
    (args ≠ [] → ¬(args.map CmdArg.kind).Nodup → assemble (.cmd id args) = .error .repeatedKind) ∧
    (args ≠ [] → (args.map CmdArg.kind).Nodup → (∀ a ∈ args, a.inRange = true) →
      (∃ ordered : List CmdArg, ordered.Perm args ∧ (ordered.map CmdArg.kind).Sublist argOrder ∧
        assemble (.cmd id args) = .ok (ordered.map fun a => encode (a.instr (BitVec.ofNat 32 id)))) ∧
      (args'.Perm args → assemble (.cmd id args') = assemble (.cmd id args)))

/-- R84, R103: an identity renders as `0x` and exactly four hexadecimal digits, `A` to `F` in upper case, most significant
first and zero-padded, and its text reads back as its value. -/
def Obligations.RenderedIdentitiesReadBack : Prop :=
  ∀ v : Identity,
    let digits : List Char := ['0', '1', '2', '3', '4', '5', '6', '7', '8', '9', 'A', 'B', 'C', 'D', 'E', 'F']
    (∃ a b c d, renderIdentity v = ['0', 'x', a, b, c, d] ∧
      digits[v.toNat / 16 ^ 3]? = some a ∧ digits[v.toNat / 16 ^ 2 % 16]? = some b ∧
      digits[v.toNat / 16 % 16]? = some c ∧ digits[v.toNat % 16]? = some d) ∧
    readIdLiteral (renderIdentity v) = some v.toNat

/-- R210: a status is determined by its code, and the codes are `0x0` to `0x6`. -/
def Obligations.StatusCodesAreTheTable : Prop :=
  (∀ st : Status, Status.ofCode? st.code = some st) ∧
  (∀ v : BitVec 4, Status.ofCode? v = none ↔ 7 ≤ v.toNat) ∧
  Status.code .ok = 0 ∧ Status.code .invalidIdentity = 1 ∧ Status.code .outOfRange = 2 ∧
  Status.code .unknownPreset = 3 ∧ Status.code .encodingError = 4 ∧ Status.code .malformedRequest = 5 ∧
  Status.code .deliveryError = 6
end

