-- ==== Sys2Proof/Laws/Config.lean ====
section
/-! SUPPORT. What `WF_CFG` (R41) gives, one lemma per check that later proofs use. -/
namespace Sys2Proof

/-- `WF_CFG` is the conjunction of its twelve checks. -/
theorem Cfg.wf_eq_checks (c : Cfg) : c.wf = true ↔
    c.wfIdWidth = true ∧ c.wfReservedZero = true ∧ c.wfIdSpace = true ∧ c.wfOpWidth = true ∧ c.wfOpcInjective = true
      ∧ c.wfBreezeNonempty = true ∧ c.wfChkWidth = true ∧ c.wfSymbolsDistinct = true ∧ c.wfDurationsPositive = true
      ∧ c.wfRepeat = true ∧ c.wfDurationsFit = true ∧ c.wfCarrier = true := by
  simp only [Cfg.wf, Bool.and_eq_true, and_assoc]

theorem Config.wId_pos (c : Config) : 1 ≤ c.raw.wId := by
  simpa [Cfg.wfIdWidth] using ((Cfg.wf_eq_checks c.raw).1 c.wf).1

theorem Config.zero_reserved (c : Config) : (0 : Identity) ∈ c.raw.reservedIds := by
  simpa [Cfg.wfReservedZero] using ((Cfg.wf_eq_checks c.raw).1 c.wf).2.1

theorem Config.wOp_pos (c : Config) : 1 ≤ c.raw.wOp := by
  simpa [Cfg.wfOpWidth] using ((Cfg.wf_eq_checks c.raw).1 c.wf).2.2.2.1

theorem Config.wChk_pos (c : Config) : 1 ≤ c.raw.wChk := by
  simpa [Cfg.wfChkWidth] using ((Cfg.wf_eq_checks c.raw).1 c.wf).2.2.2.2.2.2.1

theorem Config.symbols_distinct (c : Config) : c.raw.t0 ≠ c.raw.t1 := by
  simpa [Cfg.wfSymbolsDistinct] using ((Cfg.wf_eq_checks c.raw).1 c.wf).2.2.2.2.2.2.2.1

/-- A valid identity as a proposition (R100). -/
theorem Cfg.isValidId_iff (c : Cfg) (v : Identity) :
    c.isValidId v = true ↔ v.toNat < 2 ^ min 16 c.wId ∧ v ∉ c.reservedIds := by
  simp [Cfg.isValidId]

/-- The commands of a configuration (R43), by constructor. -/
@[simp] theorem Cfg.mem_commands_breezePreset (c : Cfg) (p : Byte) :
    Cmd.breezePreset p ∈ c.commands ↔ p ∈ c.breezeIds := by
  simp [Cfg.commands]

@[simp] theorem Cfg.mem_commands_setSpeed (c : Cfg) (l : Fin 10) : Cmd.setSpeed l ∈ c.commands := by
  simp [Cfg.commands]

@[simp] theorem Cfg.mem_commands_setDirection (c : Cfg) (d : Direction) : Cmd.setDirection d ∈ c.commands := by
  cases d <;> simp [Cfg.commands]

@[simp] theorem Cfg.mem_commands_toggleLight (c : Cfg) : Cmd.toggleLight ∈ c.commands := by
  simp [Cfg.commands]

@[simp] theorem Cfg.mem_commands_dimStep (c : Cfg) (d : DimDir) : Cmd.dimStep d ∈ c.commands := by
  cases d <;> simp [Cfg.commands]

@[simp] theorem Cfg.mem_commands_pair (c : Cfg) : Cmd.pair ∈ c.commands := by
  simp [Cfg.commands]

end Sys2Proof
end

