-- ==== Sys2Proof/Laws/State.lean ====
section
/-! SUPPORT. One lemma per field per update of the state, and per field of the responses. -/
namespace Sys2Proof.Machine

@[simp] theorem State.respond_cfg (s : State) (r : Response) : (s.respond r).cfg = s.cfg := rfl
@[simp] theorem State.respond_port (s : State) (r : Response) : (s.respond r).port = none := rfl
@[simp] theorem State.respond_last (s : State) (r : Response) : (s.respond r).last = some r := rfl
@[simp] theorem State.respond_ent (s : State) (r : Response) : (s.respond r).ent = s.ent := rfl

@[simp] theorem State.fail_cfg (s : State) (e : Status) : (s.fail e).cfg = s.cfg := rfl
@[simp] theorem State.fail_port (s : State) (e : Status) : (s.fail e).port = none := rfl
@[simp] theorem State.fail_last (s : State) (e : Status) : (s.fail e).last = some (Response.error e) := rfl
@[simp] theorem State.fail_ent (s : State) (e : Status) : (s.fail e).ent = s.ent := rfl

@[simp] theorem State.consumeDraw_cfg (s : State) : s.consumeDraw.cfg = s.cfg := rfl
@[simp] theorem State.consumeDraw_port (s : State) : s.consumeDraw.port = s.port := rfl
@[simp] theorem State.consumeDraw_last (s : State) : s.consumeDraw.last = s.last := rfl
@[simp] theorem State.consumeDraw_ent (s : State) : s.consumeDraw.ent = s.ent + 1 := rfl

@[simp] theorem State.applyReset_cfg (s : State) : s.applyReset.cfg = s.cfg := rfl
@[simp] theorem State.applyReset_port (s : State) : s.applyReset.port = none := rfl
@[simp] theorem State.applyReset_last (s : State) : s.applyReset.last = none := rfl
@[simp] theorem State.applyReset_ent (s : State) : s.applyReset.ent = Config.entropyAfterReset s.ent := rfl

@[simp] theorem State.withFetchWord_cfg (s : State) (n w : Nat) : (s.withFetchWord n w).cfg = s.cfg := rfl
@[simp] theorem State.withFetchWord_port (s : State) (n w : Nat) :
    (s.withFetchWord n w).port = some (requestOfTableWord n w) := rfl
@[simp] theorem State.withFetchWord_last (s : State) (n w : Nat) : (s.withFetchWord n w).last = s.last := rfl
@[simp] theorem State.withFetchWord_ent (s : State) (n w : Nat) : (s.withFetchWord n w).ent = s.ent := rfl

@[simp] theorem Response.error_status (e : Status) : (Response.error e).status = e := rfl
@[simp] theorem Response.error_id (e : Status) : (Response.error e).id = none := rfl
@[simp] theorem Response.error_cw (e : Status) : (Response.error e).cw = none := rfl
@[simp] theorem Response.error_pkt (e : Status) : (Response.error e).pkt = none := rfl
@[simp] theorem Response.error_txbuf (e : Status) : (Response.error e).txbuf = none := rfl

@[simp] theorem Response.identity_status (v : Identity) : (Response.identity v).status = .ok := rfl
@[simp] theorem Response.identity_id (v : Identity) : (Response.identity v).id = some v := rfl
@[simp] theorem Response.identity_cw (v : Identity) : (Response.identity v).cw = none := rfl
@[simp] theorem Response.identity_pkt (v : Identity) : (Response.identity v).pkt = none := rfl

@[simp] theorem Response.packet_status (c : Cfg) (w : BitVec c.wCw) : (Response.packet c w).status = .ok := rfl
@[simp] theorem Response.packet_id (c : Cfg) (w : BitVec c.wCw) : (Response.packet c w).id = none := rfl
@[simp] theorem Response.packet_cw (c : Cfg) (w : BitVec c.wCw) : (Response.packet c w).cw = some ⟨c.wCw, w⟩ := rfl
@[simp] theorem Response.packet_pkt (c : Cfg) (w : BitVec c.wCw) : (Response.packet c w).pkt = some (frameBuild c w) :=
  rfl

end Sys2Proof.Machine
end

