-- ==== Sys2Proof/Laws/Ops.lean ====
section
/-! SUPPORT. What each shared operation can do, said once: the operand checks, the encoder, the build procedure, the
draw, and the step. -/
namespace Sys2Proof.Machine

/-- What `validateId` can answer (R101). -/
theorem validateId_cases (c : Cfg) (idv : Word) :
    (validateId c idv = .error .invalidIdentity ∧
      (2 ^ 16 ≤ idv.toNat ∨ 2 ^ min 16 c.wId ≤ idv.toNat ∨ idv.extractLsb' 0 16 ∈ c.reservedIds)) ∨
    (validateId c idv = .ok (idv.extractLsb' 0 16) ∧ idv.toNat < 2 ^ 16 ∧ idv.toNat < 2 ^ min 16 c.wId ∧
      idv.extractLsb' 0 16 ∉ c.reservedIds) := by
  unfold validateId
  split
  · next h => exact .inl ⟨rfl, .inl h⟩
  · next h1 =>
    split
    · next h => exact .inl ⟨rfl, .inr (.inl h)⟩
    · next h2 =>
      split
      · next h => exact .inl ⟨rfl, .inr (.inr (by simpa using h))⟩
      · next h3 => exact .inr ⟨rfl, by omega, by omega, by simpa using h3⟩

/-- An identity that `validateId` accepts is valid (R100, R101). -/
theorem validateId_ok_valid {c : Cfg} {idv : Word} {v : Identity} (h : validateId c idv = .ok v) :
    c.isValidId v = true := by
  obtain ⟨he, -⟩ | ⟨ho, h16, hw, hr⟩ := validateId_cases c idv
  · simp [he] at h
  · rw [ho] at h
    cases h
    have hlow : (idv.extractLsb' 0 16).toNat = idv.toNat := by
      rw [BitVec.extractLsb'_toNat, Nat.shiftRight_zero, Nat.mod_eq_of_lt h16]
    exact (Cfg.isValidId_iff _ _).2 ⟨hlow ▸ hw, hr⟩

/-- What `speedOperand` can answer (R121). -/
theorem speedOperand_cases (p : Byte) :
    (∃ l : Fin 10, p.toNat = l.val ∧ speedOperand p = .ok (.setSpeed l)) ∨
      (9 < p.toNat ∧ speedOperand p = .error .outOfRange) := by
  unfold speedOperand
  split
  · next h => exact .inl ⟨⟨p.toNat, h⟩, rfl, rfl⟩
  · next h => exact .inr ⟨by omega, rfl⟩

/-- What `directionOperand` can answer (R122). -/
theorem directionOperand_cases (p : Byte) :
    (p = 0 ∧ directionOperand p = .ok (.setDirection .fwd)) ∨ (p = 1 ∧ directionOperand p = .ok (.setDirection .rev)) ∨
      (2 ≤ p.toNat ∧ directionOperand p = .error .outOfRange) := by
  unfold directionOperand
  split
  · next h => exact .inl ⟨h, rfl⟩
  · next h0 =>
    split
    · next h => exact .inr (.inl ⟨h, rfl⟩)
    · next h1 => exact .inr (.inr ⟨by bv_omega, rfl⟩)

/-- What `dimOperand` can answer (R124). -/
theorem dimOperand_cases (p : Byte) :
    (p = 0 ∧ dimOperand p = .ok (.dimStep .up)) ∨ (p = 1 ∧ dimOperand p = .ok (.dimStep .down)) ∨
      (2 ≤ p.toNat ∧ dimOperand p = .error .outOfRange) := by
  unfold dimOperand
  split
  · next h => exact .inl ⟨h, rfl⟩
  · next h0 =>
    split
    · next h => exact .inr (.inl ⟨h, rfl⟩)
    · next h1 => exact .inr (.inr ⟨by bv_omega, rfl⟩)

/-- What `presetOperand` can answer (R125). -/
theorem presetOperand_cases (c : Cfg) (p : Byte) :
    (p ∈ c.breezeIds ∧ presetOperand c p = .ok (.breezePreset p)) ∨
      (p ∉ c.breezeIds ∧ presetOperand c p = .error .unknownPreset) := by
  unfold presetOperand
  split
  · next h => exact .inl ⟨by simpa using h, rfl⟩
  · next h => exact .inr ⟨by simpa using h, rfl⟩

/-- `encodeCodeword` answers a codeword exactly by its opcode (R127, R130). -/
theorem encodeCodeword_some {c : Cfg} {id : Identity} {cmd : Cmd} {o : BitVec c.wOp} (h : c.opcodeOf cmd = some o) :
    encodeCodeword c id cmd = .ok (preChecksum c id o ++ checksum c cmd (preChecksum c id o)) := by
  simp [encodeCodeword, opcode, h]

theorem encodeCodeword_none {c : Cfg} {id : Identity} {cmd : Cmd} (h : c.opcodeOf cmd = none) :
    encodeCodeword c id cmd = .error .encodingError := by
  simp [encodeCodeword, opcode, h]

/-- What `encodeCodeword` can answer (R127, R130). -/
theorem encodeCodeword_cases (c : Cfg) (id : Identity) (cmd : Cmd) :
    (c.opcodeOf cmd = none ∧ encodeCodeword c id cmd = .error .encodingError) ∨
    (∃ o, c.opcodeOf cmd = some o ∧
      encodeCodeword c id cmd = .ok (preChecksum c id o ++ checksum c cmd (preChecksum c id o))) := by
  cases h : c.opcodeOf cmd with
  | none => exact .inl ⟨rfl, encodeCodeword_none h⟩
  | some o => exact .inr ⟨o, rfl, encodeCodeword_some h⟩

/-- What `build` can answer (R180): the first error of identity, command and opcode, or the packet. -/
theorem build_cases (c : Cfg) (src : CmdSource) (idv : Word) :
    (validateId c idv = .error .invalidIdentity ∧ build c src idv = Response.error .invalidIdentity) ∨
    (∃ id e, validateId c idv = .ok id ∧ src.command c = .error e ∧ build c src idv = Response.error e) ∨
    (∃ id cmd, validateId c idv = .ok id ∧ src.command c = .ok cmd ∧ c.opcodeOf cmd = none ∧
      build c src idv = Response.error .encodingError) ∨
    (∃ id cmd o, validateId c idv = .ok id ∧ src.command c = .ok cmd ∧ c.opcodeOf cmd = some o ∧
      build c src idv = Response.packet c (preChecksum c id o ++ checksum c cmd (preChecksum c id o))) := by
  obtain ⟨hv, -⟩ | ⟨hv, -⟩ := validateId_cases c idv
  · exact .inl ⟨hv, by simp [build, hv]⟩
  · cases hc : src.command c with
    | error e => exact .inr (.inl ⟨_, e, hv, rfl, by simp [build, hv, hc]⟩)
    | ok cmd =>
      obtain ⟨ho, he⟩ | ⟨o, ho, he⟩ := encodeCodeword_cases c (idv.extractLsb' 0 16) cmd
      · exact .inr (.inr (.inl ⟨_, cmd, hv, rfl, ho, by simp [build, hv, hc, he]⟩))
      · exact .inr (.inr (.inr ⟨_, cmd, o, hv, rfl, ho, by simp [build, hv, hc, he]⟩))

/-- The drawn identity is valid (R102): all that is known of it. -/
theorem State.draw_valid (s : State) : s.cfg.raw.isValidId s.draw = true :=
  (Config.entropy s.cfg ⟨s.cfg.leastValidId⟩ s.ent).property

/-- What `exec` can do (R190): it answers a next state, which is the state it was given after one write of the latch,
with one draw consumed by GEN_ID and by nothing else. -/
theorem exec_cases (i : Instr) (s : State) :
    (i = .genId ∧ exec i s = .next (s.consumeDraw.respond (Response.identity s.draw))) ∨
    (i ≠ .genId ∧ ∃ r, exec i s = .next (s.respond r)) := by
  cases i with
  | genId => exact .inl ⟨rfl, rfl⟩
  | validateId idv => exact .inr ⟨by simp, _, rfl⟩
  | buildPair idv => exact .inr ⟨by simp, _, rfl⟩
  | setSpeed p idv => exact .inr ⟨by simp, _, rfl⟩
  | setDirection p idv => exact .inr ⟨by simp, _, rfl⟩
  | toggleLight idv => exact .inr ⟨by simp, _, rfl⟩
  | dimStep p idv => exact .inr ⟨by simp, _, rfl⟩
  | breezePreset p idv => exact .inr ⟨by simp, _, rfl⟩
  | cmdPair idv => exact .inr ⟨by simp, _, rfl⟩

/-- The only error of `decode` is MALFORMED_REQUEST (R77). -/
theorem decode_error {r : Request} {e : Status} (h : decode r = .error e) : e = .malformedRequest := by
  unfold decode decodeBuildCmd at h
  repeat' split at h
  all_goals first | exact (Except.error.inj h).symm | cases h

/-- What `step` can do (R190). -/
theorem step_cases (s : State) :
    (s.port = none ∧ step s = .next s) ∨
    (∃ r, s.port = some r ∧ decode r = .error .malformedRequest ∧ step s = .next (s.fail .malformedRequest)) ∨
    (∃ r i, s.port = some r ∧ decode r = .ok i ∧ step s = exec i s) := by
  cases hp : s.port with
  | none => exact .inl ⟨rfl, by simp [step, hp]⟩
  | some r =>
    cases hd : decode r with
    | error e =>
      obtain rfl := decode_error hd
      exact .inr (.inl ⟨r, rfl, hd, by simp [step, hp, hd]⟩)
    | ok i => exact .inr (.inr ⟨r, i, rfl, hd, by simp [step, hp, hd]⟩)

/-- The waveform at the two kinds of time (R158). -/
@[simp] theorem carrierOn_natCast (l : List TimingPair) (t : Nat) : carrierOn l (t : Int) = carrierAfterStart l t := rfl
@[simp] theorem carrierOn_negSucc (l : List TimingPair) (t : Nat) : carrierOn l (Int.negSucc t) = false := rfl

end Sys2Proof.Machine
end

