-- ==== Sys2Proof/Laws/PerInstr.lean ====
section
/-! SUPPORT. The statements made for every instruction, one lemma per constructor of `Instr`. -/
namespace Sys2Proof

/-- The value of a request word from its fields (R71). -/
theorem requestWord_toNat (f v : BitVec 4) (p : Byte) :
    (requestWord f v p).toNat = f.toNat * 2 ^ 28 + v.toNat * 2 ^ 24 + p.toNat * 2 ^ 16 := by
  have h1 : v.toNat < 2 ^ 4 := v.isLt
  have h2 : p.toNat < 2 ^ 8 := p.isLt
  have happ : ∀ {m n : Nat} (a : BitVec m) (b : BitVec n), (a ++ b).toNat = a.toNat * 2 ^ n + b.toNat := by
    intro m n a b
    rw [BitVec.toNat_append, ← Nat.shiftLeft_add_eq_or_of_lt b.isLt, Nat.shiftLeft_eq]
  simp only [requestWord, happ, BitVec.toNat_ofNat]
  omega

end Sys2Proof

namespace Sys2Proof.Laws.EncodedRequestIsWellFormed

/-- The request of an instruction violates no clause of the wire format (R75, R78). -/
def Statement (i : Instr) : Prop := (encode i).wellFormed = true

/-- A request word under BUILD_CMD with a variant below 6, and PARAM zero where it must be, is well formed. -/
theorem of_buildCmd (v : BitVec 4) (p : Byte) (idv : Word) (hv : v.toNat < 6)
    (hp : v.toNat = 2 ∨ v.toNat = 5 → p.toNat = 0) :
    (Request.mk (requestWord 4 v p) idv).wellFormed = true := by
  have h2 : p.toNat < 2 ^ 8 := p.isLt
  have hw := requestWord_toNat 4 v p
  generalize (requestWord 4 v p) = w at hw ⊢
  simp only [Request.wellFormed, Request.wfRsvd, Request.wfFunc, Request.wfVariant, Request.wfUnused, Request.wfParam,
    Request.wfIdv, hw]
  simp
  omega

/-- A request word outside BUILD_CMD with its operand fields zero is well formed. -/
theorem of_plain (f : BitVec 4) (idv : Word) (hf : f.toNat = 2 ∨ f.toNat = 3) :
    (Request.mk (requestWord f 0 0) idv).wellFormed = true := by
  have hw := requestWord_toNat f 0 0
  generalize (requestWord f 0 0) = w at hw ⊢
  simp only [Request.wellFormed, Request.wfRsvd, Request.wfFunc, Request.wfVariant, Request.wfUnused, Request.wfParam,
    Request.wfIdv, hw]
  obtain h | h := hf <;> simp [h]

theorem genId : Statement .genId := by unfold Statement; decide
theorem validateId (idv : Word) : Statement (.validateId idv) := of_plain 2 idv (.inl rfl)
theorem buildPair (idv : Word) : Statement (.buildPair idv) := of_plain 3 idv (.inr rfl)
theorem setSpeed (p : Byte) (idv : Word) : Statement (.setSpeed p idv) :=
  of_buildCmd 0 p idv (by decide) (by simp)
theorem setDirection (p : Byte) (idv : Word) : Statement (.setDirection p idv) :=
  of_buildCmd 1 p idv (by decide) (by simp)
theorem toggleLight (idv : Word) : Statement (.toggleLight idv) := of_buildCmd 2 0 idv (by decide) (fun _ => rfl)
theorem dimStep (p : Byte) (idv : Word) : Statement (.dimStep p idv) := of_buildCmd 3 p idv (by decide) (by simp)
theorem breezePreset (p : Byte) (idv : Word) : Statement (.breezePreset p idv) :=
  of_buildCmd 4 p idv (by decide) (by simp)
theorem cmdPair (idv : Word) : Statement (.cmdPair idv) := of_buildCmd 5 0 idv (by decide) (fun _ => rfl)

end Sys2Proof.Laws.EncodedRequestIsWellFormed
end

