-- ==== Sys2Proof/Tests/Slice0.lean ====
section
/-! SUPPORT. Tests. The expected values are the spec's own vectors (95_test_vectors.md) or are written out from its
encodings (30_encoding.md). CFG_EX, CFG_EX2 and CFG_EX3 are the spec's illustrative configurations: none of their values is
a protocol value (D35). -/
namespace Sys2Proof.Tests

open Sys2Proof Sys2Proof.Machine

/-- CFG_EX of 95_test_vectors.md section 0. -/
def cfgEx : Cfg where
  wSync := 8
  syncVal := 0xA5
  wId := 16
  reservedIds := [0x0000]
  wOp := 8
  opc := (List.finRange 10).map (fun l => (Cmd.setSpeed l, BitVec.ofNat 8 (0x10 + l.val)))
    ++ [(.setDirection .fwd, 0x20), (.setDirection .rev, 0x21), (.toggleLight, 0x30), (.dimStep .up, 0x40),
      (.dimStep .down, 0x41), (.breezePreset 0, 0x50), (.breezePreset 1, 0x51), (.breezePreset 2, 0x52), (.pair, 0x7F)]
  breezeIds := [0, 1, 2]
  wChk := 8
  chkCmd := .sum
  chkPair := .sum
  bitOrder := .msbFirst
  t0 := ⟨400, 1200⟩
  t1 := ⟨1200, 400⟩
  preamble := [⟨4800, 1600⟩]
  trailer := [⟨400, 8000⟩]
  gap := 2000
  repeatCount := 5
  carrierHz := 433000000
  modulation := .ook
  timeUnit := .microseconds
  wDur := 32
  serializer := 0

/-- CFG_EX2 of 95_test_vectors.md section 0. -/
def cfgEx2 : Cfg where
  wSync := 0
  syncVal := 0
  wId := 12
  reservedIds := [0x0000, 0x0FFF]
  wOp := 5
  opc := (List.finRange 10).map (fun l => (Cmd.setSpeed l, BitVec.ofNat 5 l.val))
    ++ [(.setDirection .fwd, 10), (.setDirection .rev, 11), (.toggleLight, 12), (.dimStep .up, 13), (.dimStep .down, 14),
      (.breezePreset 1, 15), (.breezePreset 2, 16), (.breezePreset 3, 17), (.pair, 31)]
  breezeIds := [1, 2, 3]
  wChk := 4
  chkCmd := .xor
  chkPair := .xorConst .xor 0xF
  bitOrder := .lsbFirst
  t0 := ⟨300, 900⟩
  t1 := ⟨900, 600⟩
  preamble := []
  trailer := []
  gap := 9000
  repeatCount := 3
  carrierHz := 433000000
  modulation := .ook
  timeUnit := .microseconds
  wDur := 32
  serializer := 0

/-- CFG_EX3 of 95_test_vectors.md section 0: CFG_EX without an opcode for preset 2. -/
def cfgEx3 : Cfg := { cfgEx with opc := cfgEx.opc.filter fun row => row.1 != .breezePreset 2 }

theorem test_cfgEx_wf : cfgEx.wf = true := by decide
theorem test_cfgEx2_wf : cfgEx2.wf = true := by decide
theorem test_cfgEx3_wf : cfgEx3.wf = true := by decide

/-- A state under a configuration, with nothing in the port and the latch. -/
def stateOf (c : Cfg) (h : c.wf = true) : State := { cfg := ⟨c, h⟩, port := none, last := none, ent := 7 }
def sEx : State := stateOf cfgEx test_cfgEx_wf
def sEx2 : State := stateOf cfgEx2 test_cfgEx2_wf
def sEx3 : State := stateOf cfgEx3 test_cfgEx3_wf

/-! ### The checks refuse -/

theorem test_wf_id_width : ({ cfgEx with wId := 0 } : Cfg).wfIdWidth = false := by decide
theorem test_wf_reserved_zero : ({ cfgEx with reservedIds := [1] } : Cfg).wfReservedZero = false := by decide
theorem test_wf_id_space : ({ cfgEx with wId := 1, reservedIds := [0, 1] } : Cfg).wfIdSpace = false := by decide
theorem test_wf_op_width : ({ cfgEx with wOp := 0, opc := [] } : Cfg).wfOpWidth = false := by decide
theorem test_wf_opc_injective :
    ({ cfgEx with opc := [(.pair, 1), (.toggleLight, 1)] } : Cfg).wfOpcInjective = false := by decide
theorem test_wf_breeze_nonempty : ({ cfgEx with breezeIds := [] } : Cfg).wfBreezeNonempty = false := by decide
theorem test_wf_chk_width : ({ cfgEx with wChk := 0 } : Cfg).wfChkWidth = false := by decide
theorem test_wf_symbols_distinct : ({ cfgEx with t1 := ⟨400, 1200⟩ } : Cfg).wfSymbolsDistinct = false := by decide
theorem test_wf_durations_positive : ({ cfgEx with preamble := [⟨0, 5⟩] } : Cfg).wfDurationsPositive = false := by decide
theorem test_wf_repeat : ({ cfgEx with repeatCount := 0 } : Cfg).wfRepeat = false := by decide
theorem test_wf_durations_fit_pair : ({ cfgEx with wDur := 10 } : Cfg).wfDurationsFit = false := by decide
theorem test_wf_durations_fit_gap : ({ cfgEx with wDur := 13 } : Cfg).wfDurationsFit = false := by decide
theorem test_wf_carrier : ({ cfgEx with carrierHz := 0 } : Cfg).wfCarrier = false := by decide
theorem test_wf_modulation : ({ cfgEx with modulation := .other 1 } : Cfg).wfCarrier = false := by decide
/-- R229's two examples are refused as a whole. -/
theorem test_wf_refuses_equal_symbols : ({ cfgEx with t1 := ⟨400, 1200⟩ } : Cfg).wf = false := by decide

theorem test_wf_request_rsvd : (Request.mk 0x10000001 0).wfRsvd = false := by decide
theorem test_wf_request_func : (Request.mk 0x50000000 0).wfFunc = false := by decide
theorem test_wf_request_variant : (Request.mk 0x46000000 0).wfVariant = false := by decide
theorem test_wf_request_unused : (Request.mk 0x30800000 0).wfUnused = false := by decide
theorem test_wf_request_param : (Request.mk 0x45010000 0).wfParam = false := by decide
theorem test_wf_request_idv : (Request.mk 0x10000000 1).wfIdv = false := by decide

/-! ### Decoding: words written out from R71 to R73 as FUNC ++ VARIANT ++ PARAM ++ RSVD -/

theorem test_decode_genId : decode ⟨0b0001#4 ++ 0b0000#4 ++ 0b00000000#8 ++ 0#16, 0⟩ = .ok .genId := by decide
theorem test_decode_validateId :
    decode ⟨0b0010#4 ++ 0b0000#4 ++ 0b00000000#8 ++ 0#16, 0xFFFFFFFF⟩ = .ok (.validateId 0xFFFFFFFF) := by decide
theorem test_decode_buildPair :
    decode ⟨0b0011#4 ++ 0b0000#4 ++ 0b00000000#8 ++ 0#16, 0x15A9⟩ = .ok (.buildPair 0x15A9) := by decide
theorem test_decode_setSpeed :
    decode ⟨0b0100#4 ++ 0b0000#4 ++ 0b11111111#8 ++ 0#16, 0x15A9⟩ = .ok (.setSpeed 255 0x15A9) := by decide
theorem test_decode_setDirection :
    decode ⟨0b0100#4 ++ 0b0001#4 ++ 0b00000001#8 ++ 0#16, 0x15A9⟩ = .ok (.setDirection 1 0x15A9) := by decide
theorem test_decode_toggleLight :
    decode ⟨0b0100#4 ++ 0b0010#4 ++ 0b00000000#8 ++ 0#16, 0x15A9⟩ = .ok (.toggleLight 0x15A9) := by decide
theorem test_decode_dimStep :
    decode ⟨0b0100#4 ++ 0b0011#4 ++ 0b00000001#8 ++ 0#16, 0x15A9⟩ = .ok (.dimStep 1 0x15A9) := by decide
theorem test_decode_breezePreset :
    decode ⟨0b0100#4 ++ 0b0100#4 ++ 0b10000000#8 ++ 0#16, 0x15A9⟩ = .ok (.breezePreset 128 0x15A9) := by decide
theorem test_decode_cmdPair :
    decode ⟨0b0100#4 ++ 0b0101#4 ++ 0b00000000#8 ++ 0#16, 0x15A9⟩ = .ok (.cmdPair 0x15A9) := by decide
/-- V-DEC-1, 3 to 6, 8 to 15. -/
theorem test_decode_malformed :
    ([⟨0x00000000, 0⟩, ⟨0x10000000, 0x15A9⟩, ⟨0x10000001, 0⟩, ⟨0x11000000, 0⟩, ⟨0x20010000, 0x15A9⟩, ⟨0x30800000, 0x15A9⟩,
      ⟨0x46000000, 0x15A9⟩, ⟨0x4F000000, 0x15A9⟩, ⟨0x42010000, 0x15A9⟩, ⟨0x45010000, 0x15A9⟩, ⟨0x50000000, 0x15A9⟩,
      ⟨0xF0000000, 0x15A9⟩, ⟨0x40050001, 0x15A9⟩] : List Request).all
      (fun r => match decode r with | .error e => e == .malformedRequest | .ok _ => false) = true := by decide
theorem test_decodeTableWord : decodeTableWord 32 0x44020000 = some (.breezePreset 2 0) := by decide
theorem test_decodeTableWord_idv : decodeTableWord 64 0x000015A943010000 = some (.dimStep 1 0x15A9) := by decide

/-! ### The requests -/

/-- The response in the latch after an outcome. -/
def responseOf (o : Host.Outcome State Fault Refusal) : Option Response :=
  match o with
  | .next t => t.last
  | .fault _ => none
  | .refused _ => none
def cwOf (o : Host.Outcome State Fault Refusal) : Option Codeword := (responseOf o).bind Response.cw
def statusOf (o : Host.Outcome State Fault Refusal) : Option Status := (responseOf o).map Response.status
def idOf (o : Host.Outcome State Fault Refusal) : Option Identity := (responseOf o).bind Response.id
def frameOf (o : Host.Outcome State Fault Refusal) : Option (List TimingPair) :=
  ((responseOf o).bind Response.pkt).map EncodedPacket.frame
def timingsOf (o : Host.Outcome State Fault Refusal) : Option (List TimingPair) :=
  ((responseOf o).bind Response.pkt).map EncodedPacket.timings

/-- V-DEC-2: GEN_ID answers OK and takes one draw. -/
theorem test_genId_status : statusOf (exec .genId sEx) = some .ok := by decide
/-- V-ID-4 and V-ID-11: the highest valid identities. -/
theorem test_validateId_highest :
    idOf (exec (.validateId 0xFFFF) sEx) = some 0xFFFF ∧ idOf (exec (.validateId 0xFFE) sEx2) = some 0x0FFE := by decide
/-- V-ID-2, 5, 6 and V-ID-8 to 10. -/
theorem test_validateId_invalid :
    (([0x0, 0x10000, 0x10001, 0xFFFFFFFF] : List Word).all
      (fun v => statusOf (exec (.validateId v) sEx) == some .invalidIdentity)) = true ∧
    (([0x15A9, 0xFFF, 0x1000] : List Word).all
      (fun v => statusOf (exec (.validateId v) sEx2) == some .invalidIdentity)) = true := by decide
/-- V-ENC-24: the sum wraps. -/
theorem test_buildPair_sum_wraps : cwOf (exec (.buildPair 0xFFFF) sEx) = some ⟨40, 0xA5FFFF7F22⟩ := by decide
/-- V-ENC2-20: the pairing checksum is a function of its own. -/
theorem test_buildPair_own_checksum : cwOf (exec (.buildPair 0x5A9) sEx2) = some ⟨21, 0x0B53FD⟩ := by decide
/-- V-ENC-10 and V-ENC2-22. -/
theorem test_setSpeed_nine :
    cwOf (exec (.setSpeed 9 0x15A9) sEx) = some ⟨40, 0xA515A9197C⟩ ∧
      cwOf (exec (.setSpeed 9 0xFFE) sEx2) = some ⟨21, 0x1FFC94⟩ := by decide
/-- V-ERR-1, V-ERR-7. -/
theorem test_setSpeed_ten :
    statusOf (exec (.setSpeed 10 0x15A9) sEx) = some .outOfRange ∧
      statusOf (exec (.setSpeed 10 0) sEx) = some .invalidIdentity := by decide
/-- V-ENC-11, V-ENC-12. -/
theorem test_setDirection :
    cwOf (exec (.setDirection 0 0x15A9) sEx) = some ⟨40, 0xA515A92083⟩ ∧
      cwOf (exec (.setDirection 1 0x15A9) sEx) = some ⟨40, 0xA515A92184⟩ := by decide
/-- V-ERR-3. -/
theorem test_setDirection_two : statusOf (exec (.setDirection 2 0x15A9) sEx) = some .outOfRange := by decide
/-- V-ENC-13, V-ENC2-13. -/
theorem test_toggleLight :
    cwOf (exec (.toggleLight 0x15A9) sEx) = some ⟨40, 0xA515A93093⟩ ∧
      cwOf (exec (.toggleLight 0x5A9) sEx2) = some ⟨21, 0x0B52C0⟩ := by decide
/-- V-ENC-14, V-ENC-15. -/
theorem test_dimStep :
    cwOf (exec (.dimStep 0 0x15A9) sEx) = some ⟨40, 0xA515A940A3⟩ ∧
      cwOf (exec (.dimStep 1 0x15A9) sEx) = some ⟨40, 0xA515A941A4⟩ := by decide
/-- V-ERR-4. -/
theorem test_dimStep_two : statusOf (exec (.dimStep 2 0x15A9) sEx) = some .outOfRange := by decide
/-- V-ENC-18, V-ENC2-19, V-ENC2-16. -/
theorem test_breezePreset :
    cwOf (exec (.breezePreset 2 0x15A9) sEx) = some ⟨40, 0xA515A952B5⟩ ∧
      cwOf (exec (.breezePreset 3 0x5A9) sEx2) = some ⟨21, 0x0B531C⟩ ∧
      statusOf (exec (.breezePreset 0 0x5A9) sEx2) = some .unknownPreset := by decide
/-- V-ENC3-1, 3 and 4. -/
theorem test_breezePreset_without_opcode :
    statusOf (exec (.breezePreset 2 0x15A9) sEx3) = some .encodingError ∧
      statusOf (exec (.breezePreset 2 0) sEx3) = some .invalidIdentity ∧
      statusOf (exec (.breezePreset 3 0x15A9) sEx3) = some .unknownPreset := by decide
/-- V-ENC-20. -/
theorem test_cmdPair : cwOf (exec (.cmdPair 0x15A9) sEx) = some ⟨40, 0xA515A97FE2⟩ := by decide
/-- V-ERR-12. -/
theorem test_cmdPair_wide_identity : statusOf (exec (.cmdPair 0x10000) sEx) = some .invalidIdentity := by decide
/-- V-ERR-9: decoding comes before identity, through the step. -/
theorem test_step_malformed_first : statusOf (serve ⟨0x420A0000, 0⟩ sEx) = some .malformedRequest := by decide
/-- Program P1 line 4, through the step. -/
theorem test_step_setSpeed : cwOf (serve ⟨0x40050000, 0x15A9⟩ sEx) = some ⟨40, 0xA515A91578⟩ := by decide
/-- The step from reset runs a word of the table. -/
theorem test_step_from_reset : statusOf (step (State.reset.withFetchWord 32 0x10000000)) = some .ok := by decide

/-- V-FRM-3: least significant bit first, the gap on the last data pair. -/
theorem test_frame_lsb_first : frameOf (exec (.setSpeed 8 0x5A9) sEx2) = some
    [⟨900, 600⟩, ⟨300, 900⟩, ⟨300, 900⟩, ⟨900, 600⟩, ⟨300, 900⟩, ⟨900, 600⟩, ⟨300, 900⟩, ⟨900, 600⟩, ⟨900, 600⟩, ⟨300, 900⟩,
      ⟨900, 600⟩, ⟨300, 900⟩, ⟨300, 900⟩, ⟨300, 900⟩, ⟨300, 900⟩, ⟨900, 600⟩, ⟨300, 900⟩, ⟨300, 900⟩, ⟨300, 900⟩, ⟨900, 600⟩,
      ⟨300, 9900⟩] := by decide
/-- V-FRM-1: 42 pairs with preamble and trailer, the gap on the trailer; 210 pairs lasting 404000. -/
theorem test_frame_ends :
    ((frameOf (exec (.buildPair 0x15A9) sEx)).map fun f => (f.length, f.head?, f.getLast?)) =
      some (42, some ⟨4800, 1600⟩, some ⟨400, 10000⟩) := by decide
theorem test_timings_size :
    ((timingsOf (exec (.buildPair 0x15A9) sEx)).map fun f => (f.length, duration f)) = some (210, 404000) := by
  decide +kernel
/-- V-FRM-4: the pairing packet of CFG_EX2 lasts 115200. -/
theorem test_timings_duration : (timingsOf (exec (.buildPair 0x5A9) sEx2)).map duration = some 115200 := by
  decide +kernel
/-- V-FRM-1, read as a waveform: off before 0, on in [0, 4800), off in [4800, 6400), on from 6400, off from the end at
80800. -/
theorem test_carrier :
    ((frameOf (exec (.buildPair 0x15A9) sEx)).map fun f => [-1, 0, 4799, 4800, 6399, 6400, 80800].map (carrierOn f)) =
      some [false, true, true, false, false, true, false] := by decide

/-! ### The assembler (R82 to R85, W3, P2) and the identity's text (R103) -/

theorem test_assemble_expands :
    (match assembleText (textCmd ++ [' ', '0', 'x', '1', '5', 'A', '9', ','] ++ textForward ++ [',', ' '] ++ textSpeed ++ ['5'])
      with | .ok rs => rs | .error _ => []) = [⟨0x40050000, 0x15A9⟩, ⟨0x41000000, 0x15A9⟩] := by decide
theorem test_assemble_repeated_kind :
    (match assemble (.cmd 0x15A9 [.speed 5, .speed 6]) with | .error e => some e | .ok _ => none) =
      some .repeatedKind := by decide
theorem test_disassemble_raw : disassemble ⟨0x41020000, 0x15A9⟩ = .req 0x41020000 0x15A9 := by decide
theorem test_renderIdentity : renderIdentity 0x15a9 = ['0', 'x', '1', '5', 'A', '9'] := by decide

/-! ### Witnesses: states and operands that meet the hypotheses of each statement, clause by clause -/

/-- The requests the witnesses use: GEN_ID, VALIDATE_ID 0x15A9, SET_SPEED 9 and SET_SPEED 10 for 0x15A9. -/
def rGen : Request := ⟨0x10000000, 0⟩
def rValidate : Request := ⟨0x20000000, 0x15A9⟩
def rSpeed : Request := ⟨0x40090000, 0x15A9⟩
def rSpeedTen : Request := ⟨0x400A0000, 0x15A9⟩

/-- A state with a request in its port. -/
def busy (r : Request) (s : State) : State := { s with port := some r }
theorem test_busy (r : Request) (s : State) : (busy r s).port = some r := rfl

theorem test_hyp_RequestAfterResetBehavesAsAnyLaterOne : DrawsNothing rValidate := by unfold DrawsNothing; decide
theorem test_hyp_BootRefusesExactlyIllFormedConfigurations :
    ({ cfgEx with repeatCount := 0 } : Cfg).wf = false ∧ ({ cfgEx with repeatCount := 1 } : Cfg).wf = true := by decide
/-- Both sides of the equivalence hold and fail: the gap on the final space fits 14 bits and not 13. -/
theorem test_hyp_WellFormedConfigurationMeetsItsTwelveConditions :
    ({ cfgEx with wDur := 14 } : Cfg).wf = true ∧ ({ cfgEx with wDur := 13 } : Cfg).wf = false ∧
      cfgEx.trailer = [] ++ [⟨400, 8000⟩] ∧ cfgEx2.trailer = [] := by decide
theorem test_hyp_EncodeOfDecodeIsTheRequest : decode rSpeed = .ok (.setSpeed 9 0x15A9) := by decide
/-- The six causes at their boundaries (FUNC 0 and 5, VARIANT 6, one bit of each must-be-zero field, IDV 1), and none. -/
theorem test_hyp_MalformedRequestsAreExactlyTheSixCauses :
    ¬(1 ≤ ((0x00000000 : Word).extractLsb' 28 4).toNat ∧ ((0x00000000 : Word).extractLsb' 28 4).toNat ≤ 4) ∧
    ¬(1 ≤ ((0x50000000 : Word).extractLsb' 28 4).toNat ∧ ((0x50000000 : Word).extractLsb' 28 4).toNat ≤ 4) ∧
    ((0x46000000 : Word).extractLsb' 28 4).toNat = 4 ∧ 6 ≤ ((0x46000000 : Word).extractLsb' 24 4).toNat ∧
    (0x20000001 : Word).extractLsb' 0 16 ≠ 0 ∧ (0x28000000 : Word).extractLsb' 16 12 ≠ 0 ∧
    ((0x42010000 : Word).extractLsb' 24 4).toNat = 2 ∧ (0x42010000 : Word).extractLsb' 16 8 ≠ 0 ∧
    ((0x45010000 : Word).extractLsb' 24 4).toNat = 5 ∧ (0x45010000 : Word).extractLsb' 16 8 ≠ 0 ∧
    ((0x10000000 : Word).extractLsb' 28 4).toNat = 1 ∧ (1 : Word) ≠ 0 ∧
    (busy ⟨0x10000000, 1⟩ sEx).port = some ⟨0x10000000, 1⟩ ∧
    decode ⟨0x45000000, 1⟩ = .ok (.cmdPair 1) ∧ decode rGen = .ok .genId := by decide
theorem test_hyp_StepRunsTheDecodedRequest :
    (busy rSpeed sEx).port = some rSpeed ∧ decode rSpeed = .ok (.setSpeed 9 0x15A9) ∧
      decodeTableWord 32 0x10000000 = some .genId ∧ sEx.port = none ∧
      (busy rGen sEx).port = some rGen := by decide
/-- Each way of being bad at its boundary, and the highest good candidate. -/
theorem test_hyp_ValidateIdRejectsExactlyBadCandidates :
    2 ^ 16 ≤ (0x10000 : Word).toNat ∧ 2 ^ min 16 cfgEx2.wId ≤ (0x1000 : Word).toNat ∧
    (0 : Word).extractLsb' 0 16 ∈ cfgEx.reservedIds ∧
    ¬(2 ^ 16 ≤ (0xFFFF : Word).toNat ∨ 2 ^ min 16 cfgEx.wId ≤ (0xFFFF : Word).toNat ∨
      (0xFFFF : Word).extractLsb' 0 16 ∈ cfgEx.reservedIds) := by decide
theorem test_hyp_ValidateIdAcceptsExactlyValidIds :
    validateId cfgEx 0xFFFF = .ok 0xFFFF ∧ validateId cfgEx 1 = .ok 1 := by decide
theorem test_hyp_ValidateIdAnswersOkOrInvalid :
    sEx.cfg.raw.isValidId 0xFFFF = true ∧ BadIdentity sEx.cfg.raw 0x10000 ∧ BadIdentity sEx2.cfg.raw 0x1000 ∧
      BadIdentity sEx2.cfg.raw 0xFFF := by unfold BadIdentity; decide
theorem test_hyp_GeneratedIdentitiesValidate : ∃ t r v,
    exec .genId sEx = .next t ∧ t.last = some r ∧ r.id = some v ∧ sEx.cfg = sEx.cfg := ⟨_, _, _, rfl, rfl, rfl, rfl⟩

theorem test_hyp_BuildPairWritesThePairingPacket :
    sEx.cfg.raw.isValidId 0x15A9 = true ∧ sEx.cfg.raw.opcodeOf .pair = some 0x7F := by decide
theorem test_hyp_SetSpeedWritesTheSpeedPacket : sEx.cfg.raw.isValidId 0x15A9 = true ∧
    sEx.cfg.raw.opcodeOf (.setSpeed 0) = some 0x10 ∧ sEx.cfg.raw.opcodeOf (.setSpeed 9) = some 0x19 := by decide
theorem test_hyp_SetDirectionWritesTheDirectionPacket : sEx.cfg.raw.isValidId 0x15A9 = true ∧
    sEx.cfg.raw.opcodeOf (.setDirection .fwd) = some 0x20 ∧
    sEx.cfg.raw.opcodeOf (.setDirection .rev) = some 0x21 := by decide
theorem test_hyp_ToggleLightWritesTheLightPacket :
    sEx.cfg.raw.isValidId 0x15A9 = true ∧ sEx.cfg.raw.opcodeOf .toggleLight = some 0x30 := by decide
theorem test_hyp_DimStepWritesTheDimPacket : sEx.cfg.raw.isValidId 0x15A9 = true ∧
    sEx.cfg.raw.opcodeOf (.dimStep .up) = some 0x40 ∧ sEx.cfg.raw.opcodeOf (.dimStep .down) = some 0x41 := by
  decide
theorem test_hyp_BreezePresetWritesThePresetPacket : sEx.cfg.raw.isValidId 0x15A9 = true ∧
    (2 : Byte) ∈ sEx.cfg.raw.breezeIds ∧ sEx.cfg.raw.opcodeOf (.breezePreset 2) = some 0x52 := by decide
theorem test_hyp_CmdPairWritesThePairingPacket :
    sEx2.cfg.raw.isValidId 0xFFE = true ∧ sEx2.cfg.raw.opcodeOf .pair = some 31 := by decide

theorem test_hyp_BadIdentityIsReportedByEveryRequestWithOne :
    identityOperand (.setSpeed 10 0x10000) = some 0x10000 ∧ BadIdentity sEx.cfg.raw 0x10000 ∧
    identityOperand (.validateId 0x1000) = some 0x1000 ∧ BadIdentity sEx2.cfg.raw 0x1000 ∧
    identityOperand (.buildPair 0) = some 0 ∧ BadIdentity sEx.cfg.raw 0 := by unfold BadIdentity; decide
theorem test_hyp_OutOfRangeParametersAreReported : sEx.cfg.raw.isValidId 0x15A9 = true ∧
    9 < (10 : Byte).toNat ∧ 9 < (255 : Byte).toNat ∧ 2 ≤ (2 : Byte).toNat ∧ 2 ≤ (255 : Byte).toNat := by decide
theorem test_hyp_UnknownPresetsAreReported :
    sEx.cfg.raw.isValidId 0x15A9 = true ∧ (3 : Byte) ∉ sEx.cfg.raw.breezeIds := by decide

/-- A build request without an opcode under CFG_EX3, and CFG_EX with an opcode for every command. -/
theorem test_hyp_EncodingErrorExactlyForCommandsWithoutOpcode :
    (identityOperand (.breezePreset 2 0x15A9) = some (idOperand 0x15A9) ∧ sEx3.cfg.raw.isValidId 0x15A9 = true ∧
      Commands sEx3.cfg.raw (.breezePreset 2 0x15A9) (.breezePreset 2) ∧
      sEx3.cfg.raw.opcodeOf (.breezePreset 2) = none) ∧
    (∀ cmd ∈ sEx.cfg.raw.commands, sEx.cfg.raw.opcodeOf cmd ≠ none) ∧
    (∃ t resp, step (busy rSpeed sEx) = .next t ∧ t.last = some resp) ∧
    ∃ t resp, step (busy ⟨0x44020000, 0x15A9⟩ sEx3) = .next t ∧ t.last = some resp ∧ resp.status = .encodingError :=
  ⟨⟨by decide, by decide, ⟨by decide, rfl⟩, by decide⟩, by decide, ⟨_, _, rfl, rfl⟩, _, _, rfl, rfl, by decide⟩
/-- One request for each status, with the clauses' hypotheses. -/
theorem test_hyp_ErrorsAreReportedInPriorityOrder :
    (busy rSpeedTen sEx).port = some rSpeedTen ∧ decode ⟨0x420A0000, 0⟩ = .error .malformedRequest ∧
    (decode ⟨0x400A0000, 0⟩ = .ok (.setSpeed 10 0) ∧ BadIdentity sEx.cfg.raw 0) ∧
    (decode rSpeedTen = .ok (.setSpeed 10 0x15A9) ∧ ¬BadIdentity sEx.cfg.raw 0x15A9 ∧ BadRange (.setSpeed 10 0x15A9)) ∧
    (decode ⟨0x44030000, 0x15A9⟩ = .ok (.breezePreset 3 0x15A9) ∧ BadPreset sEx3.cfg.raw (.breezePreset 3 0x15A9)) ∧
    (¬BadRange (.breezePreset 2 0x15A9) ∧ ¬BadPreset sEx3.cfg.raw (.breezePreset 2 0x15A9) ∧
      Commands sEx3.cfg.raw (.breezePreset 2 0x15A9) (.breezePreset 2) ∧
      sEx3.cfg.raw.opcodeOf (.breezePreset 2) = none) ∧
    (¬BadRange (.buildPair 0x15A9) ∧ ¬BadPreset sEx.cfg.raw (.buildPair 0x15A9) ∧
      ∀ cmd, Commands sEx.cfg.raw (.buildPair 0x15A9) cmd → sEx.cfg.raw.opcodeOf cmd ≠ none) := by
  refine ⟨rfl, by decide, ⟨by decide, ?_⟩, ⟨by decide, ?_, ?_⟩, ⟨by decide, ?_⟩, ⟨id, ?_, ⟨by decide, rfl⟩, by decide⟩,
    id, id, ?_⟩
  · unfold BadIdentity; decide
  · unfold BadIdentity; decide
  · unfold BadRange; decide
  · unfold BadPreset; decide
  · unfold BadPreset; decide
  · rintro cmd rfl; decide
theorem test_hyp_StatusesStayInTheTableOfTheRequest : ∃ t, exec (.setSpeed 10 0x15A9) sEx = .next t := ⟨_, rfl⟩
theorem test_hyp_FailedRequestsLeaveTheStatusAlone : ∃ t resp,
    (busy rSpeedTen sEx).port = some rSpeedTen ∧ step (busy rSpeedTen sEx) = .next t ∧ t.last = some resp ∧
      resp.status ≠ .ok := ⟨_, _, rfl, rfl, rfl, by decide⟩
theorem test_hyp_ParametersAreValidatedByVariant :
    (0 : Byte).toNat = (0 : Fin 10).val ∧ (9 : Byte).toNat = (9 : Fin 10).val ∧ 9 < (10 : Byte).toNat ∧
    (1 : Byte).toNat = 1 ∧ 2 ≤ (2 : Byte).toNat ∧ (2 : Byte) ∈ cfgEx.breezeIds ∧ (3 : Byte) ∉ cfgEx.breezeIds := by decide

theorem test_hyp_RequestsWriteOnlyTheLatch :
    (∃ t, exec (.toggleLight 0x15A9) sEx = .next t ∧ Instr.toggleLight 0x15A9 ≠ .genId) ∧
      ∃ t, exec .genId sEx = .next t := ⟨⟨_, rfl, by decide⟩, _, rfl⟩
/-- Two blocks of one configuration with different histories and draws. -/
theorem test_hyp_ResponsesDependOnRequestAndConfigurationAlone : ∃ t t',
    sEx.cfg = ({ sEx with ent := 8 } : State).cfg ∧ DrawsNothing rSpeed ∧
    serveAll ([rGen, rSpeedTen] ++ [rSpeed]) sEx = .next t ∧
    serveAll ([] ++ [rSpeed]) { sEx with ent := 8 } = .next t' :=
  ⟨_, _, rfl, by unfold DrawsNothing; decide, rfl, rfl⟩
theorem test_hyp_RequestsWithoutDrawsAreIdempotent : ∃ t u,
    DrawsNothing rSpeed ∧ serve rSpeed sEx = .next t ∧ serve rSpeed t = .next u :=
  ⟨_, _, by unfold DrawsNothing; decide, rfl, rfl⟩
theorem test_hyp_OrderOfCallersDoesNotChangeResponses : ∃ a b c d,
    DrawsNothing rSpeed ∧ DrawsNothing rValidate ∧ serve rSpeed sEx = .next a ∧ serve rValidate a = .next b ∧
    serve rValidate sEx = .next c ∧ serve rSpeed c = .next d :=
  ⟨_, _, _, _, by unfold DrawsNothing; decide, by unfold DrawsNothing; decide, rfl, rfl, rfl, rfl⟩

/-- A state whose latch holds a pairing packet, with a request in the port. -/
def sLatched : State :=
  { sEx with
    port := some rSpeed
    last := some (packetResponse cfgEx (codewordOf cfgEx 0x15A9 (0x7F#8) .sum)) }
theorem test_sLatched_inv : sLatched.Inv := by
  intro r hr
  obtain rfl := Option.some.inj hr
  exact .inr (.inr ⟨0x15A9, .pair, 0x7F#8, by decide, by decide, by decide, rfl⟩)
theorem test_hyp_EveryStepKeepsSoundResponses : ∃ t, sLatched.Inv ∧ step sLatched = .next t :=
  ⟨_, test_sLatched_inv, rfl⟩
theorem test_hyp_PacketsInTheLatchAgreeWithTheirCodeword : ∃ r p,
    sLatched.Inv ∧ sLatched.last = some r ∧ r.pkt = some p := ⟨_, _, test_sLatched_inv, rfl, rfl⟩

/-- CFG_EX and CFG_EX2 as configurations. -/
def kEx : Config := ⟨cfgEx, test_cfgEx_wf⟩
def kEx2 : Config := ⟨cfgEx2, test_cfgEx2_wf⟩

theorem test_hyp_EncodingFailsExactlyWithoutAnOpcode :
    cfgEx3.opcodeOf (.breezePreset 2) = none ∧ cfgEx.opcodeOf (.breezePreset 2) ≠ none := by decide
theorem test_hyp_CodewordFieldsHoldTheirContents :
    encodeCodeword cfgEx 0x15A9 .toggleLight = .ok (0xA515A93093#40) ∧
      encodeCodeword cfgEx2 0x5A9 .pair = .ok (0x0B53FD#21) := by decide
theorem test_hyp_ChecksumRoundTrips :
    Cmd.pair ∈ kEx2.raw.commands ∧ encodeCodeword kEx2.raw 0x5A9 .pair = .ok (0x0B53FD#21) ∧
      Cmd.toggleLight ∈ kEx.raw.commands ∧ encodeCodeword kEx.raw 0x15A9 .toggleLight = .ok (0xA515A93093#40) := by
  decide
theorem test_hyp_IdentityFieldRoundTrips :
    cfgEx2.isValidId 0xFFE = true ∧ encodeCodeword cfgEx2 0xFFE (.setSpeed 9) = .ok (0x1FFC94#21) := by decide
theorem test_hyp_PairingDiffersFromCommandsInTheOpcode :
    Cmd.toggleLight ∈ kEx2.raw.commands ∧ Cmd.toggleLight ≠ .pair ∧
      encodeCodeword kEx2.raw 0x5A9 .pair = .ok (0x0B53FD#21) ∧
      encodeCodeword kEx2.raw 0x5A9 .toggleLight = .ok (0x0B52C0#21) := by decide
theorem test_hyp_CodewordsDetermineIdentityAndCommand :
    kEx.raw.isValidId 0x15A9 = true ∧ Cmd.toggleLight ∈ kEx.raw.commands ∧
      encodeCodeword kEx.raw 0x15A9 .toggleLight = .ok (0xA515A93093#40) := by decide
theorem test_hyp_OnAirBitsFollowTheFieldAndBitOrder :
    cfgEx.bitOrder = .msbFirst ∧ cfgEx2.bitOrder = .lsbFirst := by decide
/-- Groups permuted, and a group past the last. -/
theorem test_hyp_CandidateChecksumsObeyTheirLaws :
    (checksumGroups 8 (0x0102#16)).Perm (checksumGroups 8 (0x0201#16)) ∧ (16 + 8 - 1) / 8 ≤ 2 := by decide
theorem test_hyp_CodewordIsRecoverableFromTheUnit :
    kEx.raw.trailer ≠ [] ∧ kEx2.raw.trailer = [] ∧
      frameUnit kEx.raw (0xA515A93093#40) = frameUnit kEx.raw (0xA515A93093#40) := ⟨by decide, by decide, rfl⟩
theorem test_hyp_EmittedDurationsFit :
    (⟨4800, 1600⟩ : TimingPair) ∈ (frameBuild kEx.raw (0xA515A93093#40)).timings ∧
      (⟨400, 10000⟩ : TimingPair) ∈ (frameBuild kEx.raw (0xA515A93093#40)).timings := by decide +kernel
theorem test_hyp_FlatFormIsFaithful :
    ([⟨1, 2⟩, ⟨3, 4⟩] : List TimingPair)[1]? = some ⟨3, 4⟩ ∧ flat [⟨1, 2⟩] = flat [⟨1, 2⟩] := by decide
/-- No argument, a repeated kind, and distinct kinds in two orders with the highest numbers in range. -/
theorem test_hyp_MultiArgumentLinesExpandInSourceOrder :
    0xFFFFFFFF < 2 ^ 32 ∧
    ¬(([.speed 5, .speed 6] : List CmdArg).map CmdArg.kind).Nodup ∧
    (([.breeze 255, .speed 255] : List CmdArg).map CmdArg.kind).Nodup ∧
    (∀ a ∈ ([.breeze 255, .speed 255] : List CmdArg), a.inRange = true) ∧
    ([.speed 255, .breeze 255] : List CmdArg).Perm [.breeze 255, .speed 255] := by decide
/-- A space, a time before 0 and the end, each at its boundary. -/
theorem test_hyp_CarrierIsOnExactlyDuringMarks :
    0 < ([⟨3, 2⟩] : List TimingPair).length ∧ (startTime (flat [⟨3, 2⟩]) 1 : Int) ≤ 3 ∧
      (4 : Int) < startTime (flat [⟨3, 2⟩]) 2 ∧ (-1 : Int) < 0 ∧
      (startTime (flat [⟨3, 2⟩]) (flat [⟨3, 2⟩]).length : Int) ≤ 5 := by decide
theorem test_hyp_StatusCodesAreTheTable : 7 ≤ (7 : BitVec 4).toNat ∧ ¬7 ≤ (6 : BitVec 4).toNat := by decide

end Sys2Proof.Tests
end

/-! PROOFS. The configuration, the latch invariant, reset and the emitted durations. -/

namespace Sys2Proof

/-! ### The twelve checks of `WF_CFG` (R41) as propositions -/

namespace Cfg

/-- The search finds an identity exactly when one of the candidates it tries is valid. -/
theorem searchValidId_isSome_iff (c : Cfg) : ∀ fuel v : Nat,
    (c.searchValidId fuel v).isSome = true ↔ ∃ k < fuel, c.isValidId (BitVec.ofNat 16 (v + k)) = true
  | 0, v => by simp [searchValidId]
  | fuel + 1, v => by
    unfold searchValidId
    split
    · next hv => exact ⟨fun _ => ⟨0, Nat.succ_pos _, hv⟩, fun _ => rfl⟩
    · next hv =>
      rw [c.searchValidId_isSome_iff fuel (v + 1)]
      constructor
      · rintro ⟨k, hk, hval⟩
        exact ⟨k + 1, by omega, by rwa [← Nat.add_assoc, Nat.add_right_comm]⟩
      · rintro ⟨_ | k, hk, hval⟩
        · exact absurd hval hv
        · exact ⟨k, by omega, by rwa [Nat.add_right_comm, Nat.add_assoc]⟩

theorem wfIdWidth_iff (c : Cfg) : c.wfIdWidth = true ↔ 1 ≤ c.wId := by simp [wfIdWidth]

theorem wfReservedZero_iff (c : Cfg) : c.wfReservedZero = true ↔ 0 ∈ c.reservedIds := by simp [wfReservedZero]

/-- `wf_id_space`: the search starts at 0 and runs over all of `2 ^ min 16 wId` candidates, so it misses no identity. -/
theorem wfIdSpace_iff (c : Cfg) :
    c.wfIdSpace = true ↔ ∃ v : Identity, v.toNat < 2 ^ min 16 c.wId ∧ v ∉ c.reservedIds := by
  simp only [wfIdSpace, firstValidId?, searchValidId_isSome_iff, Nat.zero_add]
  constructor
  · rintro ⟨k, -, hval⟩
    exact ⟨_, (c.isValidId_iff _).1 hval⟩
  · rintro ⟨v, hlt, hres⟩
    exact ⟨v.toNat, hlt, by simpa using (c.isValidId_iff v).2 ⟨hlt, hres⟩⟩

theorem wfOpWidth_iff (c : Cfg) : c.wfOpWidth = true ↔ 1 ≤ c.wOp := by simp [wfOpWidth]

/-- `wf_opc_injective`: the check of one pair of commands, read as an implication. -/
theorem wfOpcInjective_iff (c : Cfg) : c.wfOpcInjective = true ↔
    ∀ a ∈ c.commands, ∀ b ∈ c.commands, ∀ o, c.opcodeOf a = some o → c.opcodeOf b = some o → a = b := by
  have pair_iff (a b : Cmd) : ((c.opcodeOf a).isNone || c.opcodeOf a != c.opcodeOf b || a == b) = true ↔
      ∀ o, c.opcodeOf a = some o → c.opcodeOf b = some o → a = b := by
    cases ha : c.opcodeOf a with
    | none => simp
    | some o =>
      simp only [Option.isNone_some, Bool.false_or, Bool.or_eq_true, bne_iff_ne, beq_iff_eq, Option.some.injEq,
        forall_eq, ← imp_iff_not_or, eq_comm (a := some o)]
  simp only [wfOpcInjective, List.all_eq_true, pair_iff]

theorem wfBreezeNonempty_iff (c : Cfg) : c.wfBreezeNonempty = true ↔ c.breezeIds ≠ [] := by simp [wfBreezeNonempty]

theorem wfChkWidth_iff (c : Cfg) : c.wfChkWidth = true ↔ 1 ≤ c.wChk := by simp [wfChkWidth]

theorem wfSymbolsDistinct_iff (c : Cfg) : c.wfSymbolsDistinct = true ↔ c.t0 ≠ c.t1 := by simp [wfSymbolsDistinct]

theorem wfDurationsPositive_iff (c : Cfg) :
    c.wfDurationsPositive = true ↔ ∀ p ∈ c.fixedPairs, 1 ≤ p.mark ∧ 1 ≤ p.space := by
  simp only [wfDurationsPositive, List.all_eq_true, Bool.and_eq_true, decide_eq_true_eq]

theorem wfRepeat_iff (c : Cfg) : c.wfRepeat = true ↔ 1 ≤ c.repeatCount := by simp [wfRepeat]

theorem wfDurationsFit_iff (c : Cfg) : c.wfDurationsFit = true ↔
    (∀ p ∈ c.fixedPairs, p.mark < 2 ^ c.wDur ∧ p.space < 2 ^ c.wDur) ∧
      ∀ s ∈ c.finalSpaces, s + c.gap < 2 ^ c.wDur := by
  simp only [wfDurationsFit, List.all_eq_true, Bool.and_eq_true, decide_eq_true_eq]

theorem wfCarrier_iff (c : Cfg) : c.wfCarrier = true ↔ 1 ≤ c.carrierHz ∧ c.modulation = .ook := by simp [wfCarrier]

/-- Without a trailer the final spaces are those of the two symbols (R152, assumption 10). -/
theorem finalSpaces_of_trailer_nil {c : Cfg} (h : c.trailer = []) : c.finalSpaces = [c.t0.space, c.t1.space] := by
  simp [finalSpaces, h]

/-- With a trailer the only final space is that of its last pair. -/
theorem finalSpaces_of_trailer_concat {c : Cfg} {l : List TimingPair} {p : TimingPair} (h : c.trailer = l ++ [p]) :
    c.finalSpaces = [p.space] := by
  simp [finalSpaces, h]

theorem forall_finalSpaces_iff (c : Cfg) (P : Nat → Prop) : (∀ s ∈ c.finalSpaces, P s) ↔
    (c.trailer = [] → P c.t0.space ∧ P c.t1.space) ∧ ∀ l p, c.trailer = l ++ [p] → P p.space := by
  constructor
  · intro h
    refine ⟨fun ht => ?_, fun l p ht => ?_⟩
    · simpa [finalSpaces_of_trailer_nil ht] using h
    · simpa [finalSpaces_of_trailer_concat ht] using h
  · rintro ⟨hnil, hconcat⟩
    obtain ht | ⟨l, p, ht⟩ := c.trailer.eq_nil_or_concat'
    · simpa [finalSpaces_of_trailer_nil ht] using hnil ht
    · simpa [finalSpaces_of_trailer_concat ht] using hconcat l p ht

end Cfg

/-- Settles O4: each named check means its condition; the condition on the gap is the one over the final spaces. -/
theorem wellFormedConfigurationMeetsItsTwelveConditions :
    Obligations.WellFormedConfigurationMeetsItsTwelveConditions := by
  intro c
  rw [c.wf_eq_checks, c.wfIdWidth_iff, c.wfReservedZero_iff, c.wfIdSpace_iff, c.wfOpWidth_iff, c.wfOpcInjective_iff,
    c.wfBreezeNonempty_iff, c.wfChkWidth_iff, c.wfSymbolsDistinct_iff, c.wfDurationsPositive_iff, c.wfRepeat_iff,
    c.wfDurationsFit_iff, c.wfCarrier_iff, c.forall_finalSpaces_iff fun s => s + c.gap < 2 ^ c.wDur]
  rfl

/-! ### What the duration checks give a configuration -/

namespace Config

/-- The checksum field has a bit, so a codeword is not empty (R42). -/
theorem wCw_pos (c : Config) : 0 < c.raw.wCw := Nat.add_pos_right _ c.wChk_pos

theorem durations_positive (c : Config) {p : TimingPair} (h : p ∈ c.raw.fixedPairs) : 1 ≤ p.mark ∧ 1 ≤ p.space := by
  obtain ⟨-, -, -, -, -, -, -, -, hpos, -⟩ := (Cfg.wf_eq_checks c.raw).1 c.wf
  exact c.raw.wfDurationsPositive_iff.1 hpos p h

theorem durationsFit (c : Config) : c.raw.wfDurationsFit = true := by
  obtain ⟨-, -, -, -, -, -, -, -, -, -, hfit, -⟩ := (Cfg.wf_eq_checks c.raw).1 c.wf
  exact hfit

theorem durations_fit (c : Config) {p : TimingPair} (h : p ∈ c.raw.fixedPairs) :
    p.mark < 2 ^ c.raw.wDur ∧ p.space < 2 ^ c.raw.wDur :=
  (c.raw.wfDurationsFit_iff.1 c.durationsFit).1 p h

theorem finalSpace_fits (c : Config) {s : Nat} (h : s ∈ c.raw.finalSpaces) : s + c.raw.gap < 2 ^ c.raw.wDur :=
  (c.raw.wfDurationsFit_iff.1 c.durationsFit).2 s h

end Config

/-! ### Checksums as tables -/

/-- The table that lists every value of a function from `n` to `g` bits (R30, R31; assumption 3). -/
def Checksum.ofFunction {n g : Nat} (f : BitVec n → BitVec g) : Checksum :=
  .table ((List.range (2 ^ n)).map fun i => (i, (f (BitVec.ofNat n i)).toNat)) 0

/-- Every argument has a row of its own in the table. -/
theorem Checksum.ofFunction_apply {n g : Nat} (f : BitVec n → BitVec g) (p : BitVec n) :
    (Checksum.ofFunction f).apply g p = f p := by
  have row : ((List.range (2 ^ n)).map fun i => (i, (f (BitVec.ofNat n i)).toNat)).lookup p.toNat
      = some (f p).toNat := by
    rw [List.lookup_graph (fun i => (f (BitVec.ofNat n i)).toNat) (List.mem_range.2 p.isLt), BitVec.ofNat_toNat,
      BitVec.setWidth_eq]
  simp [Checksum.ofFunction, Checksum.apply, row]

/-- Settles O47: the table of the function's values. -/
theorem everyChecksumFunctionIsConfigurable : Obligations.EveryChecksumFunctionIsConfigurable :=
  fun _ _ f => ⟨Checksum.ofFunction f, Checksum.ofFunction_apply f⟩

namespace Machine

/-! ### Which responses are sound -/

/-- The model's codeword is the one of R79 for the checksum function that applies (R128 to R130). -/
theorem preChecksum_append_checksum (c : Cfg) (id : Identity) (cmd : Cmd) (o : BitVec c.wOp) :
    preChecksum c id o ++ checksum c cmd (preChecksum c id o)
      = codewordOf c id o (if cmd = .pair then c.chkPair else c.chkCmd) := by
  unfold checksum codewordOf preChecksum
  split <;> rfl

theorem Response.packet_eq_packetResponse (c : Cfg) (w : BitVec c.wCw) : Response.packet c w = packetResponse c w := rfl

theorem Response.error_sound (c : Cfg) {e : Status} (hok : e ≠ .ok) (hdel : e ≠ .deliveryError) :
    (Response.error e).Sound c :=
  .inl ⟨e, hok, hdel, rfl⟩

theorem Response.identity_sound {c : Cfg} {v : Identity} (h : c.isValidId v = true) : (Response.identity v).Sound c :=
  .inr (.inl ⟨v, h, rfl⟩)

theorem Response.packet_sound {c : Cfg} {id : Identity} {cmd : Cmd} {o : BitVec c.wOp} (hid : c.isValidId id = true)
    (hcmd : cmd ∈ c.commands) (ho : c.opcodeOf cmd = some o) :
    (Response.packet c (preChecksum c id o ++ checksum c cmd (preChecksum c id o))).Sound c :=
  .inr (.inr ⟨id, cmd, o, hid, hcmd, ho, by
    rw [preChecksum_append_checksum, Response.packet_eq_packetResponse]⟩)

/-- What `validateCmd` can answer (R120): a command of the configuration, or an error the block writes. -/
theorem validateCmd_cases (c : Cfg) (v : BitVec 4) (p : Byte) :
    (∃ cmd ∈ c.commands, validateCmd c v p = .ok cmd) ∨
      ∃ e, e ≠ .ok ∧ e ≠ .deliveryError ∧ validateCmd c v p = .error e := by
  unfold validateCmd
  split
  · obtain ⟨l, -, h⟩ | ⟨-, h⟩ := speedOperand_cases p
    · exact .inl ⟨_, c.mem_commands_setSpeed l, h⟩
    · exact .inr ⟨.outOfRange, nofun, nofun, h⟩
  · obtain ⟨-, h⟩ | ⟨-, h⟩ | ⟨-, h⟩ := directionOperand_cases p
    · exact .inl ⟨_, c.mem_commands_setDirection _, h⟩
    · exact .inl ⟨_, c.mem_commands_setDirection _, h⟩
    · exact .inr ⟨.outOfRange, nofun, nofun, h⟩
  · exact .inl ⟨_, c.mem_commands_toggleLight, rfl⟩
  · obtain ⟨-, h⟩ | ⟨-, h⟩ | ⟨-, h⟩ := dimOperand_cases p
    · exact .inl ⟨_, c.mem_commands_dimStep _, h⟩
    · exact .inl ⟨_, c.mem_commands_dimStep _, h⟩
    · exact .inr ⟨.outOfRange, nofun, nofun, h⟩
  · obtain ⟨hp, h⟩ | ⟨-, h⟩ := presetOperand_cases c p
    · exact .inl ⟨_, (c.mem_commands_breezePreset p).2 hp, h⟩
    · exact .inr ⟨.unknownPreset, nofun, nofun, h⟩
  · exact .inl ⟨_, c.mem_commands_pair, rfl⟩
  · exact .inr ⟨.malformedRequest, nofun, nofun, rfl⟩

/-- What the command of a build request can be (R180, second step). -/
theorem CmdSource.command_cases (c : Cfg) (src : CmdSource) :
    (∃ cmd ∈ c.commands, src.command c = .ok cmd) ∨
      ∃ e, e ≠ .ok ∧ e ≠ .deliveryError ∧ src.command c = .error e := by
  cases src with
  | pair => exact .inl ⟨_, c.mem_commands_pair, rfl⟩
  | coded v p => exact validateCmd_cases c v p

theorem CmdSource.command_ok_mem {c : Cfg} {src : CmdSource} {cmd : Cmd} (h : src.command c = .ok cmd) :
    cmd ∈ c.commands := by
  obtain ⟨cmd', hmem, hok⟩ | ⟨e, -, -, he⟩ := src.command_cases c
  · obtain rfl := Except.ok.inj (h.symm.trans hok)
    exact hmem
  · exact nomatch h.symm.trans he

theorem CmdSource.command_error_ne {c : Cfg} {src : CmdSource} {e : Status} (h : src.command c = .error e) :
    e ≠ .ok ∧ e ≠ .deliveryError := by
  obtain ⟨cmd, -, hok⟩ | ⟨e', hne, hdel, he⟩ := src.command_cases c
  · exact nomatch h.symm.trans hok
  · obtain rfl := Except.error.inj (h.symm.trans he)
    exact ⟨hne, hdel⟩

/-- Whatever the build procedure answers is sound (R180). -/
theorem build_sound (c : Cfg) (src : CmdSource) (idv : Word) : (build c src idv).Sound c := by
  obtain ⟨-, h⟩ | ⟨id, e, -, he, h⟩ | ⟨id, cmd, -, -, -, h⟩ | ⟨id, cmd, o, hid, hcmd, ho, h⟩ := build_cases c src idv
  · exact h ▸ Response.error_sound c nofun nofun
  · obtain ⟨hok, hdel⟩ := CmdSource.command_error_ne he
    exact h ▸ Response.error_sound c hok hdel
  · exact h ▸ Response.error_sound c nofun nofun
  · exact h ▸ Response.packet_sound (validateId_ok_valid hid) (CmdSource.command_ok_mem hcmd) ho

/-- The response of VALIDATE_ID is sound (R105). -/
theorem validateResponse_sound (c : Cfg) (idv : Word) : (validateResponse c idv).Sound c := by
  unfold validateResponse
  obtain ⟨h, -⟩ | ⟨h, -⟩ := validateId_cases c idv
  · rw [h]
    exact Response.error_sound c nofun nofun
  · rw [h]
    exact Response.identity_sound (validateId_ok_valid h)

/-! ### The latch invariant -/

/-- A request ends with a sound response in the latch of a state of the same configuration. -/
theorem State.respond_inv {s : State} {r : Response} (h : r.Sound s.cfg.raw) : (s.respond r).Inv := by
  intro r' hr'
  obtain rfl := Option.some.inj hr'
  exact h

/-- Every request writes a sound response, whatever the latch held (R190). -/
theorem exec_inv (i : Instr) (s : State) : ∃ t, exec i s = .next t ∧ t.Inv := by
  cases i with
  | genId => exact ⟨_, rfl, State.respond_inv (Response.identity_sound s.draw_valid)⟩
  | validateId idv => exact ⟨_, rfl, State.respond_inv (validateResponse_sound _ _)⟩
  | buildPair idv => exact ⟨_, rfl, State.respond_inv (build_sound _ _ _)⟩
  | setSpeed p idv => exact ⟨_, rfl, State.respond_inv (build_sound _ _ _)⟩
  | setDirection p idv => exact ⟨_, rfl, State.respond_inv (build_sound _ _ _)⟩
  | toggleLight idv => exact ⟨_, rfl, State.respond_inv (build_sound _ _ _)⟩
  | dimStep p idv => exact ⟨_, rfl, State.respond_inv (build_sound _ _ _)⟩
  | breezePreset p idv => exact ⟨_, rfl, State.respond_inv (build_sound _ _ _)⟩
  | cmdPair idv => exact ⟨_, rfl, State.respond_inv (build_sound _ _ _)⟩

/-- A step answers a state that meets the invariant when the state before it did. -/
theorem step_inv {s : State} (hs : s.Inv) : ∃ t, step s = .next t ∧ t.Inv := by
  obtain ⟨-, h⟩ | ⟨-, -, -, h⟩ | ⟨-, i, -, -, h⟩ := step_cases s
  · exact ⟨s, h, hs⟩
  · exact ⟨_, h, State.respond_inv (Response.error_sound _ nofun nofun)⟩
  · exact h ▸ exec_inv i s

/-- Settles O36: an idle step keeps the latch, and every other step writes a sound response into it. -/
theorem everyStepKeepsSoundResponses : Obligations.EveryStepKeepsSoundResponses := by
  intro s t hs ht
  obtain ⟨t', ht', hinv⟩ := step_inv hs
  obtain rfl := Host.Outcome.next.inj (ht.symm.trans ht')
  exact hinv

/-! ### Reset -/

@[simp] theorem State.reset_last : State.reset.last = none := rfl
@[simp] theorem State.reset_port : State.reset.port = none := rfl
@[simp] theorem State.reset_cfg : State.reset.cfg = Config.configured := rfl

theorem State.inv_of_last_none {s : State} (h : s.last = none) : s.Inv := by
  intro r hr
  simp [h] at hr

/-- Settles O37: the latch is empty at reset. -/
theorem resetHoldsNoUnsoundResponse : Obligations.ResetHoldsNoUnsoundResponse :=
  State.inv_of_last_none State.reset_last

/-- Settles O1. -/
theorem resetLeavesLatchEmptyAndPortIdle : Obligations.ResetLeavesLatchEmptyAndPortIdle :=
  ⟨State.reset_last, State.reset_port, State.reset_cfg⟩

/-! ### The pairs of a frame -/

@[simp] theorem length_bitsOf (order : BitOrder) {n : Nat} (f : BitVec n) : (bitsOf order f).length = n := by
  cases order <;> simp [bitsOf]

/-- The on-air sequence has `W_CW` bits (R132). -/
@[simp] theorem length_bitSequence (c : Cfg) (w : BitVec c.wCw) : (bitSequence c w).length = c.wCw := by
  simp [bitSequence, Cfg.wCw, Cfg.wPre, Nat.add_assoc]

/-- Each data symbol is `T0` or `T1` (R150, R151). -/
theorem mem_dataSymbols {c : Cfg} {w : BitVec c.wCw} {p : TimingPair} (h : p ∈ dataSymbols c w) :
    p = c.t0 ∨ p = c.t1 := by
  obtain ⟨b, -, rfl⟩ := List.mem_map.1 h
  cases b
  · exact .inl rfl
  · exact .inr rfl

/-- A well-formed configuration sends at least one data symbol. -/
theorem dataSymbols_ne_nil (c : Config) (w : BitVec c.raw.wCw) : dataSymbols c.raw w ≠ [] := by
  have hlen : (dataSymbols c.raw w).length = c.raw.wCw := by simp [dataSymbols]
  exact List.ne_nil_of_length_pos (hlen ▸ c.wCw_pos)

/-- A frame body holds only the pairs that the configuration fixes (R152). -/
theorem mem_frameBody {c : Cfg} {w : BitVec c.wCw} {p : TimingPair} (h : p ∈ frameBody c w) : p ∈ c.fixedPairs := by
  simp only [frameBody, List.mem_append] at h
  obtain (hpre | hdata) | htr := h
  · simp [Cfg.fixedPairs, hpre]
  · obtain rfl | rfl := mem_dataSymbols hdata <;> simp [Cfg.fixedPairs]
  · simp [Cfg.fixedPairs, htr]

/-- The last pair of a frame body has one of the final spaces that `wf_durations_fit` covers (R41, R152). -/
theorem space_getLast_frameBody (c : Config) {w : BitVec c.raw.wCw} {q : TimingPair}
    (h : (frameBody c.raw w).getLast? = some q) : q.space ∈ c.raw.finalSpaces := by
  obtain ht | ⟨l, p, ht⟩ := c.raw.trailer.eq_nil_or_concat'
  · rw [frameBody, ht, List.append_nil, List.getLast?_append_of_ne_nil _ (dataSymbols_ne_nil c w)] at h
    rw [Cfg.finalSpaces_of_trailer_nil ht]
    obtain rfl | rfl := mem_dataSymbols (List.mem_of_getLast? h) <;> simp
  · rw [frameBody, ht, ← List.append_assoc, List.getLast?_concat] at h
    obtain rfl := Option.some.inj h
    simp [Cfg.finalSpaces_of_trailer_concat ht]

/-- What a pair of a list with its gap can be (R153): a pair of the list, or its last with the gap on its space. -/
theorem mem_addGap {gap : Nat} {l : List TimingPair} {p : TimingPair} (h : p ∈ addGap gap l) :
    p ∈ l ∨ ∃ q, l.getLast? = some q ∧ p = ⟨q.mark, q.space + gap⟩ := by
  unfold addGap at h
  split at h
  · next q hq =>
    obtain hl | hp := List.mem_append.1 h
    · exact .inl (List.mem_of_mem_dropLast hl)
    · exact .inr ⟨q, hq, List.mem_singleton.1 hp⟩
  · cases h

theorem mem_of_mem_rep {α : Type} {l : List α} {x : α} : ∀ {n : Nat}, x ∈ rep l n → x ∈ l
  | 0, h => nomatch h
  | _ + 1, h => (List.mem_append.1 h).elim id mem_of_mem_rep

/-- The pairs of one copy of the frame fit `W_DUR`, the one with the gap included (R39, R153). -/
theorem mem_frameUnit_fits (c : Config) {w : BitVec c.raw.wCw} {p : TimingPair} (h : p ∈ frameUnit c.raw w) :
    1 ≤ p.mark ∧ p.mark < 2 ^ c.raw.wDur ∧ 1 ≤ p.space ∧ p.space < 2 ^ c.raw.wDur := by
  obtain hp | ⟨q, hq, rfl⟩ := mem_addGap h
  · obtain ⟨hm, hs⟩ := c.durations_positive (mem_frameBody hp)
    obtain ⟨hm', hs'⟩ := c.durations_fit (mem_frameBody hp)
    exact ⟨hm, hm', hs, hs'⟩
  · have hmem : q ∈ c.raw.fixedPairs := mem_frameBody (List.mem_of_getLast? hq)
    obtain ⟨hm, hs⟩ := c.durations_positive hmem
    exact ⟨hm, (c.durations_fit hmem).1, Nat.le_add_right_of_le hs, c.finalSpace_fits (space_getLast_frameBody c hq)⟩

/-- Settles O52: a packet's timings are copies of the unit, and the unit's pairs fit. -/
theorem emittedDurationsFit : Obligations.EmittedDurationsFit :=
  fun c _ _ hp => mem_frameUnit_fits c (mem_of_mem_rep hp)

end Machine

end Sys2Proof

/-! PROOFS. Requests and runs: a response is a function of `CFG` alone, and a run keeps `CFG`. -/

namespace Sys2Proof.Machine

/-! ### The latch and the port -/

/-- The latch holds the latest response only (R46). -/
@[simp] theorem State.respond_respond (s : State) (r r' : Response) : (s.respond r).respond r' = s.respond r' := rfl

/-- The response ends the request in the port, whichever it was (R191). -/
@[simp] theorem State.respond_withPort (s : State) (p : Option Request) (r : Response) :
    ({ s with port := p } : State).respond r = s.respond r := rfl

@[simp] theorem State.fail_withPort (s : State) (p : Option Request) (e : Status) :
    ({ s with port := p } : State).fail e = s.fail e := rfl

/-! ### One transaction -/

theorem serve_of_decode_ok {r : Request} {i : Instr} (h : decode r = .ok i) (s : State) :
    serve r s = exec i { s with port := some r } := by
  simp [serve, step, h]

theorem serve_of_decode_error {r : Request} {e : Status} (h : decode r = .error e) (s : State) :
    serve r s = .next (s.fail e) := by
  simp [serve, step, h]

/-- Noninterference for one instruction (R57): its response is a function of `CFG`, of nothing else in the state. -/
theorem exec_response {i : Instr} (hi : i ≠ .genId) :
    ∃ f : Cfg → Response, ∀ s, exec i s = .next (s.respond (f s.cfg.raw)) := by
  cases i with
  | genId => exact absurd rfl hi
  | validateId idv => exact ⟨(validateResponse · idv), fun _ => rfl⟩
  | buildPair idv => exact ⟨(build · .pair idv), fun _ => rfl⟩
  | setSpeed p idv => exact ⟨(build · (.coded 0x0 p) idv), fun _ => rfl⟩
  | setDirection p idv => exact ⟨(build · (.coded 0x1 p) idv), fun _ => rfl⟩
  | toggleLight idv => exact ⟨(build · (.coded 0x2 0) idv), fun _ => rfl⟩
  | dimStep p idv => exact ⟨(build · (.coded 0x3 p) idv), fun _ => rfl⟩
  | breezePreset p idv => exact ⟨(build · (.coded 0x4 p) idv), fun _ => rfl⟩
  | cmdPair idv => exact ⟨(build · (.coded 0x5 0) idv), fun _ => rfl⟩

/-- Noninterference for one transaction (R57): a malformed request answers a constant, any other its instruction's
response. -/
theorem serve_response {r : Request} (hr : DrawsNothing r) :
    ∃ f : Cfg → Response, ∀ s, serve r s = .next (s.respond (f s.cfg.raw)) := by
  cases hd : decode r with
  | error e => exact ⟨fun _ => Response.error e, serve_of_decode_error hd⟩
  | ok i =>
    have hi : i ≠ .genId := fun h => hr (h ▸ hd)
    obtain ⟨f, hf⟩ := exec_response hi
    exact ⟨f, fun s => by simp [serve_of_decode_ok hd, hf]⟩

/-- Every instruction, GEN_ID included, answers a next state of the same `CFG` (R190). -/
theorem exec_next_cfg (i : Instr) (s : State) : ∃ t, exec i s = .next t ∧ t.cfg = s.cfg := by
  obtain ⟨-, h⟩ | ⟨-, r, h⟩ := exec_cases i s
  · exact ⟨_, h, rfl⟩
  · exact ⟨_, h, rfl⟩

theorem serve_next_cfg (r : Request) (s : State) : ∃ t, serve r s = .next t ∧ t.cfg = s.cfg := by
  cases hd : decode r with
  | error e => exact ⟨_, serve_of_decode_error hd s, rfl⟩
  | ok i => exact serve_of_decode_ok hd s ▸ exec_next_cfg i { s with port := some r }

/-! ### Runs -/

@[simp] theorem serveAll_nil (s : State) : serveAll [] s = .next s := rfl

theorem serveAll_cons {r : Request} {s t : State} (h : serve r s = .next t) (rs : List Request) :
    serveAll (r :: rs) s = serveAll rs t := by
  simp [serveAll, h]

/-- Every run ends in a state of the same `CFG` (R191). -/
theorem serveAll_next_cfg (rs : List Request) (s : State) : ∃ t, serveAll rs s = .next t ∧ t.cfg = s.cfg := by
  induction rs generalizing s with
  | nil => exact ⟨s, rfl, rfl⟩
  | cons r rs ih =>
    obtain ⟨u, hu, hcfg⟩ := serve_next_cfg r s
    rw [serveAll_cons hu, ← hcfg]
    exact ih u

theorem serveAll_append {rs : List Request} {s t : State} (h : serveAll rs s = .next t) (rs' : List Request) :
    serveAll (rs ++ rs') s = serveAll rs' t := by
  induction rs generalizing s with
  | nil => rw [List.nil_append, Host.Outcome.next.inj h]
  | cons r rs ih =>
    obtain ⟨u, hu, -⟩ := serve_next_cfg r s
    rw [serveAll_cons hu] at h
    rw [List.cons_append, serveAll_cons hu, ih h]

/-- After any history the last request's response is a function of the `CFG` the run began with (R57, R220). -/
theorem serveAll_concat_response {r : Request} (hr : DrawsNothing r) :
    ∃ f : Cfg → Response, ∀ before s t,
      serveAll (before ++ [r]) s = .next t → t.last = some (f s.cfg.raw) := by
  obtain ⟨f, hf⟩ := serve_response hr
  refine ⟨f, fun before s t ht => ?_⟩
  obtain ⟨u, hu, hcfg⟩ := serveAll_next_cfg before s
  rw [serveAll_append hu, serveAll_cons (hf u), serveAll_nil] at ht
  obtain rfl := Host.Outcome.next.inj ht
  rw [State.respond_last, hcfg]

/-! ### The obligations on requests and runs -/

/-- Settles O33: both histories end in the value of one function at one `CFG`. -/
theorem responsesDependOnRequestAndConfigurationAlone : Obligations.ResponsesDependOnRequestAndConfigurationAlone := by
  intro before before' r s s' t t' hcfg hr ht ht'
  obtain ⟨f, hf⟩ := serveAll_concat_response hr
  rw [hf before s t ht, hf before' s' t' ht', hcfg]

/-- Settles O34: the second service overwrites the latch with the response already there. -/
theorem requestsWithoutDrawsAreIdempotent : Obligations.RequestsWithoutDrawsAreIdempotent := by
  intro r s t u hr ht hu
  obtain ⟨f, hf⟩ := serve_response hr
  obtain rfl := Host.Outcome.next.inj ((hf s).symm.trans ht)
  obtain rfl := Host.Outcome.next.inj ((hf _).symm.trans hu)
  rw [State.respond_respond, State.respond_cfg]

/-- Settles O35: serving either request keeps the `CFG` that the other's response depends on. -/
theorem orderOfCallersDoesNotChangeResponses : Obligations.OrderOfCallersDoesNotChangeResponses := by
  intro q r s a b c d hq hr ha hb hc hd
  obtain ⟨f, hf⟩ := serve_response hq
  obtain ⟨g, hg⟩ := serve_response hr
  obtain rfl := Host.Outcome.next.inj ((hf s).symm.trans ha)
  obtain rfl := Host.Outcome.next.inj ((hg _).symm.trans hb)
  obtain rfl := Host.Outcome.next.inj ((hg s).symm.trans hc)
  obtain rfl := Host.Outcome.next.inj ((hf _).symm.trans hd)
  exact ⟨by simp, by simp⟩

end Sys2Proof.Machine

/-! PROOFS. The encoding: requests and their fields, codewords, assembler lines and their texts. -/

namespace Sys2Proof

/-! ### The fields of a request word -/

section RequestWord
variable (f v : BitVec 4) (p : Byte) (idv : Word)

@[simp] theorem Request.func_requestWord : (Request.mk (requestWord f v p) idv).func = f := by
  have hv : v.toNat < 2 ^ 4 := v.isLt
  have hp : p.toNat < 2 ^ 8 := p.isLt
  have hf : f.toNat < 2 ^ 4 := f.isLt
  apply BitVec.eq_of_toNat_eq
  rw [Request.func, BitVec.extractLsb'_toNat, requestWord_toNat]
  omega

@[simp] theorem Request.variant_requestWord : (Request.mk (requestWord f v p) idv).variant = v := by
  have hv : v.toNat < 2 ^ 4 := v.isLt
  have hp : p.toNat < 2 ^ 8 := p.isLt
  apply BitVec.eq_of_toNat_eq
  rw [Request.variant, BitVec.extractLsb'_toNat, requestWord_toNat]
  omega

@[simp] theorem Request.param_requestWord : (Request.mk (requestWord f v p) idv).param = p := by
  have hp : p.toNat < 2 ^ 8 := p.isLt
  apply BitVec.eq_of_toNat_eq
  rw [Request.param, BitVec.extractLsb'_toNat, requestWord_toNat]
  omega

@[simp] theorem Request.rsvd_requestWord : (Request.mk (requestWord f v p) idv).rsvd = 0 :=
  BitVec.extractLsb'_append_eq_right

end RequestWord

/-- A request word is its four fields, most significant first (R71). -/
theorem Request.requestWord_fields {r : Request} (h : r.rsvd = 0) : requestWord r.func r.variant r.param = r.req := by
  have low : r.req.toNat % 2 ^ 16 = 0 := by
    have hr := congrArg BitVec.toNat h
    rwa [Request.rsvd, BitVec.extractLsb'_toNat, Nat.shiftRight_zero] at hr
  have hreq : r.req.toNat < 2 ^ 32 := r.req.isLt
  apply BitVec.eq_of_toNat_eq
  rw [requestWord_toNat, Request.func, Request.variant, Request.param]
  simp only [BitVec.extractLsb'_toNat]
  omega

/-- `REQ[27:16]` is zero exactly when both its fields are (R75). -/
theorem Request.variantParam_eq_zero_iff {r : Request} : r.variantParam = 0#12 ↔ r.variant = 0#4 ∧ r.param = 0#8 := by
  simp only [Request.variantParam, Request.variant, Request.param, ← BitVec.toNat_inj, BitVec.extractLsb'_toNat,
    BitVec.toNat_ofNat]
  omega

/-! ### Decoding and encoding -/

theorem decode_requestWord_buildCmd (v : BitVec 4) (p : Byte) (idv : Word) :
    decode ⟨requestWord 4#4 v p, idv⟩ = decodeBuildCmd ⟨requestWord 4#4 v p, idv⟩ := by
  simp [decode]

/-- The decoder undoes the encoder, row by row of the opcode table (R72 to R74). -/
theorem decode_encode (i : Instr) : decode (encode i) = .ok i := by
  cases i with
  | genId => simp [encode, decode, Request.variantParam_eq_zero_iff]
  | validateId idv => simp [encode, decode, Request.variantParam_eq_zero_iff]
  | buildPair idv => simp [encode, decode, Request.variantParam_eq_zero_iff]
  | setSpeed p idv => simp [encode, decode_requestWord_buildCmd, decodeBuildCmd]
  | setDirection p idv => simp [encode, decode_requestWord_buildCmd, decodeBuildCmd]
  | toggleLight idv => simp [encode, decode_requestWord_buildCmd, decodeBuildCmd]
  | dimStep p idv => simp [encode, decode_requestWord_buildCmd, decodeBuildCmd]
  | breezePreset p idv => simp [encode, decode_requestWord_buildCmd, decodeBuildCmd]
  | cmdPair idv => simp [encode, decode_requestWord_buildCmd, decodeBuildCmd]

/-- Settles O5. -/
theorem decodeOfEncodeIsTheInstruction : Obligations.DecodeOfEncodeIsTheInstruction := decode_encode

/-- Each accepting arm of the decoder's BUILD_CMD table keeps VARIANT and PARAM (R73, R77). -/
theorem encode_of_decodeBuildCmd {r : Request} {i : Instr} (h : decodeBuildCmd r = .ok i) :
    encode i = ⟨requestWord 4 r.variant r.param, r.idv⟩ := by
  unfold decodeBuildCmd at h
  split at h
  · next hv => cases h; rw [(BitVec.toNat_eq_nat.1 hv).2]; rfl
  · next hv => cases h; rw [(BitVec.toNat_eq_nat.1 hv).2]; rfl
  · next hv =>
    split at h
    · next hp => cases h; rw [(BitVec.toNat_eq_nat.1 hv).2, hp]; rfl
    · cases h
  · next hv => cases h; rw [(BitVec.toNat_eq_nat.1 hv).2]; rfl
  · next hv => cases h; rw [(BitVec.toNat_eq_nat.1 hv).2]; rfl
  · next hv =>
    split at h
    · next hp => cases h; rw [(BitVec.toNat_eq_nat.1 hv).2, hp]; rfl
    · cases h
  · cases h

/-- The fields of a word whose operand bits are all zero (R75). -/
theorem Request.requestWord_of_variantParam {r : Request} {n : Nat} (hf : r.func.toNat = n) (h : r.variantParam = 0) :
    requestWord r.func r.variant r.param = requestWord (BitVec.ofNat 4 n) 0 0 := by
  obtain ⟨hv, hp⟩ := Request.variantParam_eq_zero_iff.1 h
  rw [(BitVec.toNat_eq_nat.1 hf).2, hv, hp]
  rfl

/-- What the decoder accepts: RSVD is zero, and the other three fields are those of the instruction's encoding. -/
theorem encode_of_decode {r : Request} {i : Instr} (h : decode r = .ok i) :
    r.rsvd = 0 ∧ encode i = ⟨requestWord r.func r.variant r.param, r.idv⟩ := by
  unfold decode at h
  split at h
  · next hr =>
    refine ⟨hr, ?_⟩
    split at h
    · next hf =>
      split at h
      · next hz =>
        obtain ⟨hvp, hidv⟩ := hz
        cases h; rw [Request.requestWord_of_variantParam hf hvp, hidv]; rfl
      · cases h
    · next hf =>
      split at h
      · next hvp =>
        cases h; rw [Request.requestWord_of_variantParam hf hvp]; rfl
      · cases h
    · next hf =>
      split at h
      · next hvp =>
        cases h; rw [Request.requestWord_of_variantParam hf hvp]; rfl
      · cases h
    · next hf => rw [encode_of_decodeBuildCmd h, (BitVec.toNat_eq_nat.1 hf).2]; rfl
    · cases h
  · cases h

/-- Settles O6: the accepted fields are the whole word. -/
theorem encodeOfDecodeIsTheRequest : Obligations.EncodeOfDecodeIsTheRequest := by
  intro r i h
  obtain ⟨hr, henc⟩ := encode_of_decode h
  rw [henc, Request.requestWord_fields hr]

/-- Settles O8: nine of the words are encodings; the other two have no FUNC of R72 and a PARAM that must be zero. -/
theorem sampleRequestWordsDecode : Obligations.SampleRequestWordsDecode :=
  ⟨decode_encode .genId, decode_encode (.validateId 0x15A9), decode_encode (.buildPair 0x15A9),
    decode_encode (.setSpeed 5 0x15A9), decode_encode (.setDirection 1 0x15A9), decode_encode (.toggleLight 0x15A9),
    decode_encode (.dimStep 1 0x15A9), decode_encode (.breezePreset 2 0x15A9), decode_encode (.cmdPair 0x15A9),
    by decide, by decide⟩

end Sys2Proof

namespace Sys2Proof.Machine

/-! ### The fields of a codeword -/

section Codeword
variable (c : Cfg) (s : BitVec c.wSync) (i : BitVec c.wId) (o : BitVec c.wOp) (k : BitVec c.wChk)

@[simp] theorem chkField_append (p : BitVec c.wPre) : chkField c (p ++ k) = k := BitVec.extractLsb'_append_eq_right

@[simp] theorem preField_append (p : BitVec c.wPre) : preField c (p ++ k) = p := BitVec.extractLsb'_append_eq_left

@[simp] theorem opField_append : opField c (s ++ i ++ o ++ k) = o := by
  rw [opField, BitVec.extractLsb'_append_eq_of_le le_rfl, Nat.sub_self, BitVec.extractLsb'_append_eq_right]

@[simp] theorem idField_append : idField c (s ++ i ++ o ++ k) = i := by
  rw [idField, BitVec.extractLsb'_append_eq_of_le (Nat.le_add_left _ _), Nat.add_sub_cancel,
    BitVec.extractLsb'_append_eq_of_le le_rfl, Nat.sub_self, BitVec.extractLsb'_append_eq_right]

@[simp] theorem syncField_append : syncField c (s ++ i ++ o ++ k) = s := by
  rw [syncField, BitVec.extractLsb'_append_eq_of_le (Nat.le_add_left _ _), Nat.add_sub_cancel,
    BitVec.extractLsb'_append_eq_of_le (Nat.le_add_left _ _), Nat.add_sub_cancel, BitVec.extractLsb'_append_eq_left]

end Codeword

/-- The codeword of an identity and a command is the R79 layout for the opcode of the command (R127 to R130). -/
theorem encodeCodeword_ok {c : Cfg} {id : Identity} {cmd : Cmd} {w : BitVec c.wCw}
    (h : encodeCodeword c id cmd = .ok w) :
    ∃ o, c.opcodeOf cmd = some o ∧ w = codewordOf c id o (if cmd = .pair then c.chkPair else c.chkCmd) := by
  obtain ⟨-, herr⟩ | ⟨o, ho, hok⟩ := encodeCodeword_cases c id cmd
  · exact nomatch h.symm.trans herr
  · exact ⟨o, ho, (Except.ok.inj (h.symm.trans hok)).trans (preChecksum_append_checksum c id cmd o)⟩

/-- Settles O40: the codeword is laid out field by field, and each field reads back its part. -/
theorem codewordFieldsHoldTheirContents : Obligations.CodewordFieldsHoldTheirContents := by
  intro c id cmd w h
  obtain ⟨o, ho, rfl⟩ := encodeCodeword_ok h
  simp [codewordOf, ho]

/-! ### Assembler lines -/

theorem assemble_rawLine (r : Request) : assemble (rawLine r) = .ok [r] := by
  simp [rawLine, assemble, r.req.isLt, r.idv.isLt]

/-- A `cmd` line whose identity is a word: the checks of its arguments are left (R82, R85). -/
theorem assemble_cmd {id : Nat} (hid : id < 2 ^ 32) (args : List CmdArg) : assemble (.cmd id args) =
    if args.isEmpty then .error .noArgument
    else if !decide (args.map CmdArg.kind).Nodup then .error .repeatedKind
    else if !args.all CmdArg.inRange then .error .numberRange
    else .ok ((orderArgs args).map fun a => encode (a.instr (BitVec.ofNat 32 id))) := by
  rw [assemble, assembleCmd, if_neg (Nat.not_le.2 hid)]

/-- A `cmd` line without a fault (R82, R85). -/
theorem assemble_cmd_ok {id : Nat} {args : List CmdArg} (hid : id < 2 ^ 32) (hne : args ≠ [])
    (hnodup : (args.map CmdArg.kind).Nodup) (hrange : ∀ a ∈ args, a.inRange = true) :
    assemble (.cmd id args) = .ok ((orderArgs args).map fun a => encode (a.instr (BitVec.ofNat 32 id))) := by
  simp [assemble_cmd hid, hne, hnodup, List.all_eq_true.2 hrange]

/-- The one-argument lines are the only ones a disassembler writes (R83). -/
theorem assemble_cmd_singleton (idv : Word) {a : CmdArg} (h : a.inRange = true) :
    assemble (.cmd idv.toNat [a]) = .ok [encode (a.instr idv)] := by
  have order : orderArgs [a] = [a] := by cases a <;> rfl
  rw [assemble_cmd_ok idv.isLt (List.cons_ne_nil a []) (List.nodup_singleton _) (by simpa using h), order,
    List.map_singleton, BitVec.ofNat_toNat, BitVec.setWidth_eq]

theorem assemble_disassemble (r : Request) : assemble (disassemble r) = .ok [r] := by
  unfold disassemble
  cases hd : decode r with
  | error e => exact assemble_rawLine r
  | ok i =>
    rw [← encodeOfDecodeIsTheRequest r i hd]
    cases i with
    | genId => rfl
    | validateId idv => simp [assemble, idv.isLt]
    | buildPair idv => simp [assemble, idv.isLt]
    | setSpeed p idv =>
      simpa [CmdArg.instr] using assemble_cmd_singleton idv (a := .speed p.toNat) (decide_eq_true p.isLt)
    | setDirection p idv =>
      dsimp only
      split
      · next hp => rw [hp]; exact assemble_cmd_singleton idv rfl
      · split
        · next hp => rw [hp]; exact assemble_cmd_singleton idv rfl
        · exact assemble_rawLine _
    | toggleLight idv => exact assemble_cmd_singleton idv rfl
    | dimStep p idv =>
      dsimp only
      split
      · next hp => rw [hp]; exact assemble_cmd_singleton idv rfl
      · split
        · next hp => rw [hp]; exact assemble_cmd_singleton idv rfl
        · exact assemble_rawLine _
    | breezePreset p idv =>
      simpa [CmdArg.instr] using assemble_cmd_singleton idv (a := .breeze p.toNat) (decide_eq_true p.isLt)
    | cmdPair idv => exact assemble_cmd_singleton idv rfl

/-- Settles O55. -/
theorem disassembledRequestsReassemble : Obligations.DisassembledRequestsReassemble := assemble_disassemble

/-! ### The source's argument order -/

/-- Of distinct kinds a line has at most one argument of each (R85). -/
theorem filter_kind_cases {args : List CmdArg} (h : (args.map CmdArg.kind).Nodup) (k : ArgKind) :
    (args.filter fun a => a.kind == k) = [] ∨ ∃ a, a.kind = k ∧ (args.filter fun a => a.kind == k) = [a] := by
  have atMostOne : (args.filter fun a => a.kind == k).length ≤ 1 := by
    rw [← List.countP_eq_length_filter]
    simpa [List.count, List.countP_map, Function.comp_def] using List.nodup_iff_count_le_one.1 h k
  match hf : args.filter fun a => a.kind == k with
  | [] => exact .inl hf
  | [a] =>
    have ha : a ∈ args.filter fun a => a.kind == k := hf ▸ List.mem_singleton_self a
    exact .inr ⟨a, by simpa using (List.mem_filter.1 ha).2, hf⟩
  | _ :: _ :: _ => simp [hf] at atMostOne

/-- Arguments picked kind by kind have their kinds in the order they were picked. -/
theorem kinds_flatMap_filter_sublist {args : List CmdArg} (h : (args.map CmdArg.kind).Nodup) (ks : List ArgKind) :
    ((ks.flatMap fun k => args.filter fun a => a.kind == k).map CmdArg.kind).Sublist ks := by
  induction ks with
  | nil => exact List.Sublist.slnil
  | cons k ks ih =>
    have block : ((args.filter fun a => a.kind == k).map CmdArg.kind).Sublist [k] := by
      obtain hnil | ⟨a, rfl, hone⟩ := filter_kind_cases h k
      · simp [hnil]
      · simp [hone]
    rw [List.flatMap_cons, List.map_append]
    exact block.append ih

theorem kinds_orderArgs_sublist {args : List CmdArg} (h : (args.map CmdArg.kind).Nodup) :
    ((orderArgs args).map CmdArg.kind).Sublist argOrder :=
  kinds_flatMap_filter_sublist h argOrder

theorem mem_orderArgs {args : List CmdArg} {a : CmdArg} : a ∈ orderArgs args ↔ a ∈ args := by
  have listed : a.kind ∈ argOrder := by cases a <;> simp [CmdArg.kind, argOrder]
  simp [orderArgs, listed]

theorem orderArgs_perm {args : List CmdArg} (h : (args.map CmdArg.kind).Nodup) : (orderArgs args).Perm args := by
  have hnodup : (orderArgs args).Nodup :=
    .of_map CmdArg.kind ((kinds_orderArgs_sublist h).nodup (by decide))
  exact (List.perm_ext_iff_of_nodup hnodup (.of_map CmdArg.kind h)).2 fun _ => mem_orderArgs

/-- The order of R85 forgets the order of the line. -/
theorem orderArgs_eq_of_perm {args args' : List CmdArg} (hperm : args'.Perm args)
    (h : (args.map CmdArg.kind).Nodup) : orderArgs args' = orderArgs args := by
  refine List.flatMap_congr fun k _ => ?_
  have hfilter := hperm.filter fun a => a.kind == k
  obtain hnil | ⟨a, -, hone⟩ := filter_kind_cases h k
  · rw [hnil] at hfilter ⊢
    exact hfilter.eq_nil
  · rw [hone] at hfilter ⊢
    exact hfilter.eq_singleton

/-- Settles O57: a line of distinct kinds assembles in the order of R85, which its own order does not change. -/
theorem multiArgumentLinesExpandInSourceOrder : Obligations.MultiArgumentLinesExpandInSourceOrder := by
  intro id args args' hid
  refine ⟨?_, fun hne hrep => ?_, fun hne hnodup hrange => ⟨?_, fun hperm => ?_⟩⟩
  · simp [assemble_cmd hid]
  · simp [assemble_cmd hid, hne, hrep]
  · exact ⟨orderArgs args, orderArgs_perm hnodup, kinds_orderArgs_sublist hnodup,
      assemble_cmd_ok hid hne hnodup hrange⟩
  · have hne' : args' ≠ [] := fun hnil => hne (hnil ▸ hperm).nil_eq.symm
    rw [assemble_cmd_ok hid hne hnodup hrange, assemble_cmd_ok hid hne' ((hperm.map _).nodup_iff.2 hnodup)
      fun a ha => hrange a (hperm.mem_iff.1 ha), orderArgs_eq_of_perm hperm hnodup]

end Sys2Proof.Machine

namespace Sys2Proof.Machine

/-! ### Digits -/

/-- The reader's value of a printed digit is that digit (R84, R103). -/
theorem digitValue_digitChar : ∀ d < 16, digitValue (digitChar d) = some d := by decide

theorem hexDigits_succ (k v : Nat) : hexDigits (k + 1) v = digitChar (v / 16 ^ k % 16) :: hexDigits k v := by
  rw [hexDigits, List.range_succ_eq_map, List.map_cons, List.map_map]
  refine congrArg (_ :: ·) (List.map_congr_left fun i _ => ?_)
  have shift : k + 1 - 1 - (i + 1) = k - 1 - i := by omega
  rw [Function.comp_apply, Nat.succ_eq_add_one, shift]

@[simp] theorem length_hexDigits (k v : Nat) : (hexDigits k v).length = k := by simp [hexDigits]

theorem readDigits_digitChar {base d : Nat} (hd : d < base) (hbase : base ≤ 16) (t : Text) (acc : Nat) :
    readDigits base (digitChar d :: t) acc = readDigits base t (acc * base + d) := by
  simp [readDigits, digitValue_digitChar d (hd.trans_le hbase), hd]

/-- Reading `k` hexadecimal digits gives the low `4 k` bits of the number they print. -/
theorem readDigits_hexDigits (k v acc : Nat) :
    readDigits 16 (hexDigits k v) acc = some (acc * 16 ^ k + v % 16 ^ k) := by
  induction k generalizing acc with
  | zero => simp [hexDigits, readDigits, Nat.mod_one]
  | succ k ih =>
    rw [hexDigits_succ, readDigits_digitChar (Nat.mod_lt _ (by decide)) le_rfl, ih, pow_succ, Nat.mod_mul]
    congr 1
    ring

theorem readDigits_hexDigits_of_lt {k v : Nat} (h : v < 16 ^ k) : readDigits 16 (hexDigits k v) 0 = some v := by
  rw [readDigits_hexDigits, Nat.zero_mul, Nat.zero_add, Nat.mod_eq_of_lt h]

/-- The decimal digits put before `acc` read as their number, from which the reading of `acc` goes on. -/
theorem readDigits_decimalDigits {fuel v : Nat} (h : v < fuel) (acc : Text) :
    readDigits 10 (decimalDigits fuel v acc) 0 = readDigits 10 acc v := by
  induction fuel generalizing v acc with
  | zero => omega
  | succ fuel ih =>
    unfold decimalDigits
    split
    · next hv => rw [readDigits_digitChar hv (by decide), Nat.zero_mul, Nat.zero_add]
    · next hv =>
      rw [ih (by omega), readDigits_digitChar (Nat.mod_lt _ (by decide)) (by decide), Nat.mul_comm, Nat.div_add_mod]

theorem readDigits_decimalText (v : Nat) : readDigits 10 (decimalText v) 0 = some v :=
  readDigits_decimalDigits (Nat.lt_succ_self v) []

/-! ### The characters of a printed number -/

/-- A printed digit (R103). -/
def IsDigitChar (ch : Char) : Prop := ∃ d < 16, ch = digitChar d

theorem IsDigitChar.ne_space {ch : Char} : IsDigitChar ch → ch ≠ ' ' := by
  rintro ⟨d, hd, rfl⟩
  exact (by decide : ∀ d < 16, digitChar d ≠ ' ') d hd

theorem IsDigitChar.ne_comma {ch : Char} : IsDigitChar ch → ch ≠ ',' := by
  rintro ⟨d, hd, rfl⟩
  exact (by decide : ∀ d < 16, digitChar d ≠ ',') d hd

/-- A digit is not the `x` of a hexadecimal number. -/
theorem IsDigitChar.ne_x {ch : Char} : IsDigitChar ch → ch ≠ 'x' := by
  rintro ⟨d, hd, rfl⟩
  exact (by decide : ∀ d < 16, digitChar d ≠ 'x') d hd

theorem mem_hexDigits {k v : Nat} {ch : Char} (h : ch ∈ hexDigits k v) : IsDigitChar ch := by
  obtain ⟨i, -, rfl⟩ := List.mem_map.1 h
  exact ⟨_, Nat.mod_lt _ (by decide), rfl⟩

theorem mem_decimalDigits {fuel v : Nat} {acc : Text} {ch : Char} (h : ch ∈ decimalDigits fuel v acc) :
    ch ∈ acc ∨ IsDigitChar ch := by
  induction fuel generalizing v acc with
  | zero => exact .inl h
  | succ fuel ih =>
    unfold decimalDigits at h
    split at h
    · next hv => exact (List.mem_cons.1 h).symm.imp_right fun he => ⟨v, by omega, he⟩
    · obtain hacc | hdigit := ih h
      · exact (List.mem_cons.1 hacc).symm.imp_right fun he => ⟨v % 10, by omega, he⟩
      · exact .inr hdigit

theorem mem_decimalText {v : Nat} {ch : Char} (h : ch ∈ decimalText v) : IsDigitChar ch :=
  (mem_decimalDigits h).resolve_left List.not_mem_nil

theorem decimalText_no_x (v : Nat) : 'x' ∉ decimalText v := fun h => (mem_decimalText h).ne_x rfl

/-! ### Numbers and identities -/

theorem readNumber_hex {k v : Nat} (h : v < 16 ^ (k + 1)) :
    readNumber ('0' :: 'x' :: hexDigits (k + 1) v) = some v := by
  have hread := readDigits_hexDigits_of_lt h
  rw [hexDigits_succ] at hread ⊢
  exact hread

/-- A text without an `x` in it is read as decimal (R82). -/
theorem readNumber_decimal {t : Text} (hx : 'x' ∉ t) (hne : t ≠ []) : readNumber t = readDigits 10 t 0 := by
  unfold readNumber
  split
  · exact absurd rfl hne
  · simp at hx
  · simp at hx
  · rfl

/-- A number has at least one digit: no digit at all would read as 0, whose text is not empty. -/
theorem decimalText_ne_nil (v : Nat) : decimalText v ≠ [] := by
  intro h
  have hread := readDigits_decimalText v
  rw [h] at hread
  obtain rfl : 0 = v := Option.some.inj hread
  exact absurd h (by decide)

theorem readNumber_decimalText (v : Nat) : readNumber (decimalText v) = some v := by
  rw [readNumber_decimal (decimalText_no_x v) (decimalText_ne_nil v), readDigits_decimalText]

theorem readIdLiteral_hex {k v : Nat} (hpos : 1 ≤ k) (hle : k ≤ 8) (h : v < 16 ^ k) :
    readIdLiteral (['0', 'x'] ++ hexDigits k v) = some v := by
  simp [readIdLiteral, hpos, hle, readDigits_hexDigits_of_lt h]

/-- An identity operand of any size reads back (R84, assumption 17). -/
theorem readIdLiteral_idText {v : Nat} (h : v < 2 ^ 32) : readIdLiteral (idText v) = some v := by
  unfold idText
  split
  · next h16 => exact readIdLiteral_hex (by decide) (by decide) h16
  · exact readIdLiteral_hex (by decide) (by decide) h

/-- The printed digit is the one of its table (R103). -/
theorem digits_getElem? : ∀ d < 16,
    (['0', '1', '2', '3', '4', '5', '6', '7', '8', '9', 'A', 'B', 'C', 'D', 'E', 'F'] : Text)[d]?
      = some (digitChar d) := by decide

/-- Settles O58. -/
theorem renderedIdentitiesReadBack : Obligations.RenderedIdentitiesReadBack := by
  intro v digits
  have hv : v.toNat < 16 ^ 4 := v.isLt
  have digit {d : Nat} (hd : d < 16) : digits[d]? = some (digitChar d) := digits_getElem? d hd
  refine ⟨⟨_, _, _, _, ?_, digit (by omega), digit (by omega), digit (by omega), digit (by omega)⟩,
    readIdLiteral_hex (by decide) (by decide) hv⟩
  have top : v.toNat / 16 ^ 3 % 16 = v.toNat / 16 ^ 3 := Nat.mod_eq_of_lt (by omega)
  rw [renderIdentity, hexDigits_succ, hexDigits_succ, hexDigits_succ, hexDigits_succ, top, Nat.pow_one, Nat.pow_zero,
    Nat.div_one]
  rfl

/-! ### Tokens -/

/-- A text the reader takes as one piece: it is not empty and has no space and no comma in it. -/
structure IsToken (t : Text) : Prop where
  ne_nil : t ≠ []
  no_space : ' ' ∉ t
  no_comma : ',' ∉ t

theorem isToken_iff {t : Text} : IsToken t ↔ t ≠ [] ∧ ' ' ∉ t ∧ ',' ∉ t :=
  ⟨fun ⟨hne, hspace, hcomma⟩ => ⟨hne, hspace, hcomma⟩, fun ⟨hne, hspace, hcomma⟩ => ⟨hne, hspace, hcomma⟩⟩

/-- A token with digits after it is a token. -/
theorem IsToken.append_digits {t ds : Text} (ht : IsToken t) (hd : ∀ ch ∈ ds, IsDigitChar ch) : IsToken (t ++ ds) where
  ne_nil := List.append_ne_nil_of_left_ne_nil ht.ne_nil ds
  no_space h := (List.mem_append.1 h).elim ht.no_space fun hmem => (hd _ hmem).ne_space rfl
  no_comma h := (List.mem_append.1 h).elim ht.no_comma fun hmem => (hd _ hmem).ne_comma rfl

theorem isToken_hex (k v : Nat) : IsToken ('0' :: 'x' :: hexDigits k v) :=
  IsToken.append_digits (t := ['0', 'x']) (isToken_iff.2 (by decide)) fun _ => mem_hexDigits

theorem isToken_idText (v : Nat) : IsToken (idText v) := isToken_hex _ v

theorem isToken_textValidate : IsToken textValidate := isToken_iff.2 (by decide)
theorem isToken_textPair : IsToken textPair := isToken_iff.2 (by decide)
theorem isToken_textCmd : IsToken textCmd := isToken_iff.2 (by decide)
theorem isToken_textReq : IsToken textReq := isToken_iff.2 (by decide)

/-! ### Splitting a line -/

theorem splitCommas_of_no_comma {t : Text} (h : ',' ∉ t) : splitCommas t = [t] := by
  induction t with
  | nil => rfl
  | cons ch t ih =>
    obtain ⟨hch, ht⟩ := not_or.1 (mt List.mem_cons.2 h)
    simp [splitCommas, Ne.symm hch, ih ht]

theorem splitCommas_append {t : Text} (h : ',' ∉ t) (rest : Text) :
    splitCommas (t ++ ',' :: rest) = t :: splitCommas rest := by
  induction t with
  | nil => simp [splitCommas]
  | cons ch t ih =>
    obtain ⟨hch, ht⟩ := not_or.1 (mt List.mem_cons.2 h)
    simp [splitCommas, Ne.symm hch, ih ht]

/-- The pieces of a head with a comma and a space before each piece after it. -/
theorem splitCommas_pieces {head : Text} {pieces : List Text} (hhead : ',' ∉ head) (hpieces : ∀ p ∈ pieces, ',' ∉ p) :
    splitCommas (head ++ pieces.flatMap fun p => ',' :: ' ' :: p) = head :: pieces.map (' ' :: ·) := by
  induction pieces generalizing head with
  | nil => simpa using splitCommas_of_no_comma hhead
  | cons p ps ih =>
    obtain ⟨hp, hps⟩ := List.forall_mem_cons.1 hpieces
    have hspace : ',' ∉ ' ' :: p := by simp [hp]
    have htail := ih hspace hps
    rw [List.flatMap_cons, List.cons_append, splitCommas_append hhead, htail, List.map_cons]

theorem dropWhile_space_eq_self {t : Text} (h : t.head? ≠ some ' ') : t.dropWhile (· == ' ') = t := by
  cases t with
  | nil => rfl
  | cons ch t => exact List.dropWhile_cons_of_neg (by simpa using h)

theorem trimSpaces_eq_self {t : Text} (hhead : t.head? ≠ some ' ') (hlast : t.getLast? ≠ some ' ') :
    trimSpaces t = t := by
  rw [trimSpaces, dropWhile_space_eq_self hhead, dropWhile_space_eq_self (by rwa [List.head?_reverse]),
    List.reverse_reverse]

@[simp] theorem trimSpaces_space_cons (t : Text) : trimSpaces (' ' :: t) = trimSpaces t := rfl

theorem IsToken.head?_ne {t : Text} (h : IsToken t) : t.head? ≠ some ' ' :=
  fun he => h.no_space (List.mem_of_head? he)

theorem IsToken.getLast?_ne {t : Text} (h : IsToken t) : t.getLast? ≠ some ' ' :=
  fun he => h.no_space (List.mem_of_getLast? he)

theorem IsToken.trimSpaces_eq {t : Text} (h : IsToken t) : trimSpaces t = t :=
  trimSpaces_eq_self h.head?_ne h.getLast?_ne

theorem trimSpaces_keyword_operand {k o : Text} (hk : IsToken k) (ho : IsToken o) :
    trimSpaces (k ++ ' ' :: o) = k ++ ' ' :: o := by
  apply trimSpaces_eq_self
  · rw [List.head?_append_of_ne_nil _ hk.ne_nil]
    exact hk.head?_ne
  · rw [List.getLast?_append_of_ne_nil _ (List.cons_ne_nil _ _), List.getLast?_cons_of_ne_nil ho.ne_nil]
    exact ho.getLast?_ne

theorem takeWhile_keyword {k : Text} (hk : ' ' ∉ k) (o : Text) : (k ++ ' ' :: o).takeWhile (· != ' ') = k := by
  rw [List.takeWhile_append_of_pos fun ch h => bne_iff_ne.2 (ne_of_mem_of_not_mem h hk)]
  simp

theorem dropWhile_keyword {k : Text} (hk : ' ' ∉ k) (o : Text) :
    (k ++ ' ' :: o).dropWhile (· != ' ') = ' ' :: o := by
  rw [List.dropWhile_append_of_pos fun ch h => bne_iff_ne.2 (ne_of_mem_of_not_mem h hk)]
  simp

/-- A line printed from tokens is read as those tokens (assumption 17). -/
theorem readLine_tokens {k o : Text} {pieces : List Text} (hk : IsToken k) (ho : IsToken o)
    (hpieces : ∀ p ∈ pieces, IsToken p) :
    readLine (k ++ ' ' :: o ++ pieces.flatMap fun p => ',' :: ' ' :: p) = readParts k o pieces := by
  have hcomma : ',' ∉ k ++ ' ' :: o := by simp [hk.no_comma, ho.no_comma]
  have htrim : (pieces.map (' ' :: ·)).map trimSpaces = pieces := by
    rw [List.map_map]
    exact (List.map_congr_left fun p hp => (hpieces p hp).trimSpaces_eq).trans pieces.map_id
  simp only [readLine, splitCommas_pieces hcomma fun p hp => (hpieces p hp).no_comma, List.map_cons, htrim,
    trimSpaces_keyword_operand hk ho, takeWhile_keyword hk.no_space, dropWhile_keyword hk.no_space,
    trimSpaces_space_cons, ho.trimSpaces_eq]

/-! ### Arguments -/

theorem afterText_append (lead t : Text) : afterText lead (lead ++ t) = some t := by
  induction lead with
  | nil => rfl
  | cons ch lead ih => simpa [afterText] using ih

theorem isToken_text (a : CmdArg) : IsToken a.text := by
  cases a with
  | speed n => exact IsToken.append_digits (isToken_iff.2 (by decide)) fun _ => mem_decimalText
  | direction d => cases d <;> exact isToken_iff.2 (by decide)
  | lightToggle => exact isToken_iff.2 (by decide)
  | dim d => cases d <;> exact isToken_iff.2 (by decide)
  | breeze n => exact IsToken.append_digits (isToken_iff.2 (by decide)) fun _ => mem_decimalText
  | pair => exact isToken_iff.2 (by decide)

/-- The spellings of the arguments that have no number (R82). -/
def fixedArgTexts : List Text := [textForward, textReverse, textLightToggle, textDimUp, textDimDown, textPair]

/-- A text that is no fixed spelling is an argument with a number. -/
theorem readArg_of_notMem_fixed {t : Text} (h : t ∉ fixedArgTexts) :
    readArg t = ((numberAfter textSpeed t).map .speed).or ((numberAfter textBreeze t).map .breeze) := by
  simp only [fixedArgTexts, List.mem_cons, List.not_mem_nil, or_false, not_or] at h
  simp only [readArg, h, if_false]
  cases numberAfter textSpeed t <;> rfl

/-- The first letter tells an argument with a number from the fixed spellings. -/
theorem head?_fixedArgTexts : ∀ t ∈ fixedArgTexts, t.head? ≠ textSpeed.head? ∧ t.head? ≠ textBreeze.head? := by decide

theorem numberAfter_append {lead t : Text} {n : Nat} (h : readNumber t = some n) :
    numberAfter lead (lead ++ t) = some n := by
  rw [numberAfter, afterText_append, Option.bind_some, h]

theorem readArg_speed {t : Text} {n : Nat} (h : readNumber t = some n) :
    readArg (textSpeed ++ t) = some (.speed n) := by
  have hfixed : textSpeed ++ t ∉ fixedArgTexts := fun hmem => (head?_fixedArgTexts _ hmem).1 rfl
  rw [readArg_of_notMem_fixed hfixed, numberAfter_append h]
  rfl

theorem readArg_breeze {t : Text} {n : Nat} (h : readNumber t = some n) :
    readArg (textBreeze ++ t) = some (.breeze n) := by
  have hfixed : textBreeze ++ t ∉ fixedArgTexts := fun hmem => (head?_fixedArgTexts _ hmem).2 rfl
  have hspeed : numberAfter textSpeed (textBreeze ++ t) = none := rfl
  rw [readArg_of_notMem_fixed hfixed, hspeed, numberAfter_append h]
  rfl

theorem readArg_text (a : CmdArg) : readArg a.text = some a := by
  cases a with
  | speed n => exact readArg_speed (readNumber_decimalText n)
  | direction d => cases d <;> rfl
  | lightToggle => rfl
  | dim d => cases d <;> rfl
  | breeze n => exact readArg_breeze (readNumber_decimalText n)
  | pair => rfl

theorem readArgs_text (args : List CmdArg) : readArgs (args.map CmdArg.text) = some args := by
  induction args with
  | nil => rfl
  | cons a as ih => simp [readArgs, readArg_text, ih]

/-! ### Lines -/

/-- The identities and the words of a line are words of the port (R82). -/
def AsmLine.WordsFit : AsmLine → Prop
  | .genId => True
  | .validate id => id < 2 ^ 32
  | .pair id => id < 2 ^ 32
  | .cmd id _ => id < 2 ^ 32
  | .req w v => w < 2 ^ 32 ∧ v < 2 ^ 32

/-- Only lines whose words fit assemble (R82, assumption 26). -/
theorem wordsFit_of_assemble {l : AsmLine} {rs : List Request} (h : assemble l = .ok rs) : l.WordsFit := by
  cases l with
  | genId => exact trivial
  | validate id =>
    rw [assemble] at h
    split at h
    · next hid => exact hid
    · cases h
  | pair id =>
    rw [assemble] at h
    split at h
    · next hid => exact hid
    · cases h
  | cmd id args =>
    rw [assemble, assembleCmd] at h
    split at h
    · cases h
    · next hid => exact Nat.not_le.1 hid
  | req w v =>
    rw [assemble] at h
    split at h
    · next hwv => exact hwv
    · cases h

theorem readParts_validate (o : Text) : readParts textValidate o [] = (readIdLiteral o).map .validate := rfl

theorem readParts_pair (o : Text) : readParts textPair o [] = (readIdLiteral o).map .pair := rfl

theorem readParts_cmd {o : Text} {ps : List Text} {id : Nat} {args : List CmdArg} (hid : readIdLiteral o = some id)
    (hargs : readArgs ps = some args) : readParts textCmd o ps = some (.cmd id args) := by
  have hcmd : textCmd ≠ textGenId ∧ textCmd ≠ textValidate ∧ textCmd ≠ textPair := by decide
  simp [readParts, hcmd, hid, hargs]

theorem readParts_req {o p : Text} {w v : Nat} (hw : readNumber o = some w) (hv : readNumber p = some v) :
    readParts textReq o [p] = some (.req w v) := by
  have hreq : textReq ≠ textGenId ∧ textReq ≠ textValidate ∧ textReq ≠ textPair ∧ textReq ≠ textCmd := by decide
  simp [readParts, hreq, hw, hv]

/-- A line whose words fit reads back from its text. -/
theorem readLine_text {l : AsmLine} (h : l.WordsFit) : readLine l.text = some l := by
  cases l with
  | genId => rfl
  | validate id =>
    have hread := readLine_tokens (pieces := []) isToken_textValidate (isToken_idText id) nofun
    rw [List.flatMap_nil, List.append_nil, readParts_validate, readIdLiteral_idText h] at hread
    exact hread
  | pair id =>
    have hread := readLine_tokens (pieces := []) isToken_textPair (isToken_idText id) nofun
    rw [List.flatMap_nil, List.append_nil, readParts_pair, readIdLiteral_idText h] at hread
    exact hread
  | cmd id args =>
    have hread := readLine_tokens (pieces := args.map CmdArg.text) isToken_textCmd (isToken_idText id)
      (List.forall_mem_map.2 fun a _ => isToken_text a)
    rw [List.flatMap_map, readParts_cmd (readIdLiteral_idText h) (readArgs_text args)] at hread
    exact hread
  | req w v =>
    obtain ⟨hw, hv⟩ := h
    have hread := readLine_tokens (pieces := ['0' :: 'x' :: hexDigits 8 v]) isToken_textReq (isToken_hex 8 w)
      (List.forall_mem_singleton.2 (isToken_hex 8 v))
    rw [List.flatMap_singleton, readParts_req (readNumber_hex hw) (readNumber_hex hv)] at hread
    exact hread

/-- Settles O56: a disassembled line assembles, so its words fit, so its text reads back. -/
theorem disassembledTextReassembles : Obligations.DisassembledTextReassembles := by
  intro r
  have hok := assemble_disassemble r
  rw [assembleText, disassembleText, readLine_text (wordsFit_of_assemble hok)]
  exact hok

end Sys2Proof.Machine

/-! PROOFS. Handset identities: the operand check, GEN_ID and VALIDATE_ID. -/

namespace Sys2Proof.Machine

/-! ### The identity operand -/

/-- Zero-extension leaves the number as it is (R106). -/
@[simp] theorem toNat_idOperand (v : Identity) : (idOperand v).toNat = v.toNat :=
  BitVec.toNat_setWidth_of_le (by decide)

/-- The low 16 bits of an identity's operand are the identity (R101). -/
@[simp] theorem extractLsb'_idOperand (v : Identity) : (idOperand v).extractLsb' 0 16 = v := by
  apply BitVec.eq_of_toNat_eq
  rw [BitVec.extractLsb'_toNat, Nat.shiftRight_zero, toNat_idOperand, Nat.mod_eq_of_lt v.isLt]

/-- A candidate of 16 bits is the operand of its low half: the check drops no bit of it (R101). -/
theorem idOperand_extractLsb' {idv : Word} (h : idv.toNat < 2 ^ 16) : idOperand (idv.extractLsb' 0 16) = idv := by
  apply BitVec.eq_of_toNat_eq
  rw [toNat_idOperand, BitVec.extractLsb'_toNat, Nat.shiftRight_zero, Nat.mod_eq_of_lt h]

/-- A bound by the narrower of two widths is a bound by either. -/
theorem two_pow_min_le_iff (m n k : Nat) : 2 ^ min m n ≤ k ↔ 2 ^ m ≤ k ∨ 2 ^ n ≤ k := by
  rw [(pow_right_mono₀ one_le_two).map_min, min_le_iff]

/-- R211 rejects the operands that R101 rejects, although R211 names the identity field's width alone. -/
theorem badIdentity_iff {c : Cfg} {idv : Word} : BadIdentity c idv ↔
    2 ^ 16 ≤ idv.toNat ∨ 2 ^ min 16 c.wId ≤ idv.toNat ∨ idv.extractLsb' 0 16 ∈ c.reservedIds := by
  rw [BadIdentity, two_pow_min_le_iff, or_assoc, or_self_left]

/-- The operand of an identity is rejected exactly when the identity is not valid (R100, R101). -/
theorem badIdentity_idOperand_iff {c : Cfg} {v : Identity} :
    BadIdentity c (idOperand v) ↔ ¬c.isValidId v = true := by
  have hv : ¬2 ^ 16 ≤ v.toNat := Nat.not_le.2 v.isLt
  rw [badIdentity_iff, c.isValidId_iff, toNat_idOperand, extractLsb'_idOperand, or_iff_right hv, not_and_or, not_lt,
    not_not]

/-! ### `validate_id` -/

theorem validateId_of_badIdentity {c : Cfg} {idv : Word} (h : BadIdentity c idv) :
    validateId c idv = .error .invalidIdentity := by
  obtain ⟨he, -⟩ | ⟨-, h16, hw, hr⟩ := validateId_cases c idv
  · exact he
  · obtain hbad | hbad | hbad := badIdentity_iff.1 h
    · exact absurd hbad (Nat.not_le.2 h16)
    · exact absurd hbad (Nat.not_le.2 hw)
    · exact absurd hbad hr

theorem validateId_of_not_badIdentity {c : Cfg} {idv : Word} (h : ¬BadIdentity c idv) :
    validateId c idv = .ok (idv.extractLsb' 0 16) := by
  obtain ⟨-, hbad⟩ | ⟨hok, -⟩ := validateId_cases c idv
  · exact absurd (badIdentity_iff.2 hbad) h
  · exact hok

/-- The second half of R106: `validate_id(zext_32(v)) = Ok(v)` for every valid identity. -/
theorem validateId_idOperand {c : Cfg} {v : Identity} (h : c.isValidId v = true) :
    validateId c (idOperand v) = .ok v := by
  have hgood : ¬BadIdentity c (idOperand v) := fun hbad => badIdentity_idOperand_iff.1 hbad h
  rw [validateId_of_not_badIdentity hgood, extractLsb'_idOperand]

theorem eq_idOperand_of_validateId_ok {c : Cfg} {idv : Word} {v : Identity} (h : validateId c idv = .ok v) :
    idv = idOperand v := by
  obtain ⟨he, -⟩ | ⟨hok, h16, -⟩ := validateId_cases c idv
  · exact nomatch h.symm.trans he
  · obtain rfl := Except.ok.inj (h.symm.trans hok)
    exact (idOperand_extractLsb' h16).symm

/-- The accepted candidates are the operands of the valid identities (R100, R101). -/
theorem validateId_eq_ok_iff {c : Cfg} {idv : Word} {v : Identity} :
    validateId c idv = .ok v ↔ c.isValidId v = true ∧ idv = idOperand v := by
  constructor
  · exact fun h => ⟨validateId_ok_valid h, eq_idOperand_of_validateId_ok h⟩
  · rintro ⟨hv, rfl⟩
    exact validateId_idOperand hv

/-- Settles O10: the three causes are those of `BadIdentity`. -/
theorem validateIdRejectsExactlyBadCandidates : Obligations.ValidateIdRejectsExactlyBadCandidates :=
  fun _ _ => ⟨fun hbad => validateId_of_badIdentity (badIdentity_iff.2 hbad),
    fun hgood => validateId_of_not_badIdentity (mt badIdentity_iff.1 hgood)⟩

/-- Settles O11. -/
theorem validateIdAcceptsExactlyValidIds : Obligations.ValidateIdAcceptsExactlyValidIds := by
  intro c idv v
  rw [validateId_eq_ok_iff, c.isValidId_iff, and_assoc, idOperand]

/-! ### GEN_ID and VALIDATE_ID -/

theorem exec_genId (s : State) : exec .genId s = .next (s.consumeDraw.respond (Response.identity s.draw)) := rfl

theorem exec_validateId (idv : Word) (s : State) :
    exec (.validateId idv) s = .next (s.answered (validateResponse s.cfg.raw idv)) := rfl

theorem validateResponse_idOperand {c : Cfg} {v : Identity} (h : c.isValidId v = true) :
    validateResponse c (idOperand v) = Response.identity v := by
  rw [validateResponse, validateId_idOperand h]

theorem validateResponse_of_badIdentity {c : Cfg} {idv : Word} (h : BadIdentity c idv) :
    validateResponse c idv = Response.error .invalidIdentity := by
  rw [validateResponse, validateId_of_badIdentity h]

/-- VALIDATE_ID of a valid identity answers that identity (R105). -/
theorem exec_validateId_idOperand {s : State} {v : Identity} (h : s.cfg.raw.isValidId v = true) :
    exec (.validateId (idOperand v)) s = .next (s.answered (Response.identity v)) := by
  rw [exec_validateId, validateResponse_idOperand h]

/-- VALIDATE_ID of a rejected operand answers INVALID_IDENTITY alone (R105). -/
theorem exec_validateId_of_badIdentity {s : State} {idv : Word} (h : BadIdentity s.cfg.raw idv) :
    exec (.validateId idv) s = .next (s.answered (Response.error .invalidIdentity)) := by
  rw [exec_validateId, validateResponse_of_badIdentity h]

/-- The identity that GEN_ID leaves in the latch is the draw (R104). -/
theorem eq_draw_of_exec_genId {s t : State} {r : Response} {v : Identity} (ht : exec .genId s = .next t)
    (hr : t.last = some r) (hv : r.id = some v) : v = s.draw := by
  obtain rfl := Host.Outcome.next.inj ((exec_genId s).symm.trans ht)
  obtain rfl := Option.some.inj hr
  exact (Option.some.inj hv).symm

/-- Settles O12: the identity is the draw. -/
theorem genIdReturnsAValidIdentity : Obligations.GenIdReturnsAValidIdentity :=
  fun s => ⟨s.draw, s.draw_valid, exec_genId s⟩

/-- Settles O13. -/
theorem validateIdAnswersOkOrInvalid : Obligations.ValidateIdAnswersOkOrInvalid :=
  fun _ => ⟨fun _ hvalid => exec_validateId_idOperand hvalid, fun _ hbad => exec_validateId_of_badIdentity hbad⟩

/-- Settles O14: a draw is valid, validity depends on `CFG` alone, and 0 is reserved in every well-formed one (R41). -/
theorem generatedIdentitiesValidate : Obligations.GeneratedIdentitiesValidate := by
  intro s t u r v ht hr hid hcfg
  obtain rfl := eq_draw_of_exec_genId ht hr hid
  have hvalid : u.cfg.raw.isValidId s.draw = true := hcfg ▸ s.draw_valid
  obtain ⟨-, hres⟩ := (s.cfg.raw.isValidId_iff s.draw).1 s.draw_valid
  have hne : s.draw ≠ 0 := (ne_of_mem_of_not_mem s.cfg.zero_reserved hres).symm
  exact ⟨exec_validateId_idOperand hvalid, hres, hne⟩

end Sys2Proof.Machine

/-! PROOFS. Command validation, the laws of the codeword, the on-air bits and the candidate checksums. -/

namespace Sys2Proof

/-- Under `WF_CFG` an opcode names one command of the configuration (R41, `wf_opc_injective`). -/
theorem Config.opcodeOf_injective (c : Config) {a b : Cmd} {o : BitVec c.raw.wOp} (ha : a ∈ c.raw.commands)
    (hb : b ∈ c.raw.commands) (hao : c.raw.opcodeOf a = some o) (hbo : c.raw.opcodeOf b = some o) : a = b := by
  obtain ⟨-, -, -, -, hinj, -⟩ := (Cfg.wf_eq_checks c.raw).1 c.wf
  exact c.raw.wfOpcInjective_iff.1 hinj a ha b hb o hao hbo

end Sys2Proof

namespace Sys2Proof.Machine

/-! ### Command validation -/

theorem speedOperand_of_level {p : Byte} {level : Fin 10} (h : p.toNat = level.val) :
    speedOperand p = .ok (.setSpeed level) := by
  obtain ⟨l, hl, hok⟩ | ⟨hbig, -⟩ := speedOperand_cases p
  · obtain rfl : l = level := Fin.ext (hl.symm.trans h)
    exact hok
  · omega

theorem speedOperand_of_nine_lt {p : Byte} (h : 9 < p.toNat) : speedOperand p = .error .outOfRange := by
  obtain ⟨l, hl, -⟩ | ⟨-, herr⟩ := speedOperand_cases p
  · omega
  · exact herr

theorem directionOperand_zero : directionOperand 0 = .ok (.setDirection .fwd) := rfl
theorem directionOperand_one : directionOperand 1 = .ok (.setDirection .rev) := rfl

theorem directionOperand_of_two_le {p : Byte} (h : 2 ≤ p.toNat) : directionOperand p = .error .outOfRange := by
  obtain ⟨rfl, -⟩ | ⟨rfl, -⟩ | ⟨-, herr⟩ := directionOperand_cases p
  · exact absurd h (by decide)
  · exact absurd h (by decide)
  · exact herr

theorem dimOperand_zero : dimOperand 0 = .ok (.dimStep .up) := rfl
theorem dimOperand_one : dimOperand 1 = .ok (.dimStep .down) := rfl

theorem dimOperand_of_two_le {p : Byte} (h : 2 ≤ p.toNat) : dimOperand p = .error .outOfRange := by
  obtain ⟨rfl, -⟩ | ⟨rfl, -⟩ | ⟨-, herr⟩ := dimOperand_cases p
  · exact absurd h (by decide)
  · exact absurd h (by decide)
  · exact herr

theorem presetOperand_of_mem {c : Cfg} {p : Byte} (h : p ∈ c.breezeIds) :
    presetOperand c p = .ok (.breezePreset p) := by
  obtain ⟨-, hok⟩ | ⟨hp, -⟩ := presetOperand_cases c p
  · exact hok
  · exact absurd h hp

theorem presetOperand_of_notMem {c : Cfg} {p : Byte} (h : p ∉ c.breezeIds) :
    presetOperand c p = .error .unknownPreset := by
  obtain ⟨hp, -⟩ | ⟨-, herr⟩ := presetOperand_cases c p
  · exact absurd hp h
  · exact herr

/-! The check of PARAM that R120 gives each variant. -/

theorem validateCmd_zero (c : Cfg) (p : Byte) : validateCmd c 0 p = speedOperand p := rfl
theorem validateCmd_one (c : Cfg) (p : Byte) : validateCmd c 1 p = directionOperand p := rfl
theorem validateCmd_two (c : Cfg) (p : Byte) : validateCmd c 2 p = .ok .toggleLight := rfl
theorem validateCmd_three (c : Cfg) (p : Byte) : validateCmd c 3 p = dimOperand p := rfl
theorem validateCmd_four (c : Cfg) (p : Byte) : validateCmd c 4 p = presetOperand c p := rfl
theorem validateCmd_five (c : Cfg) (p : Byte) : validateCmd c 5 p = .ok .pair := rfl

/-- Settles O30. -/
theorem parametersAreValidatedByVariant : Obligations.ParametersAreValidatedByVariant := by
  intro c p
  have param_eq {n : Byte} (h : p.toNat = n.toNat) : p = n := BitVec.eq_of_toNat_eq h
  rw [validateCmd_zero, validateCmd_one, validateCmd_three, validateCmd_four]
  refine ⟨fun _ => speedOperand_of_level, speedOperand_of_nine_lt, fun h0 => ?_, fun h1 => ?_,
    directionOperand_of_two_le, validateCmd_two c p, fun h0 => ?_, fun h1 => ?_, dimOperand_of_two_le,
    presetOperand_of_mem, presetOperand_of_notMem, validateCmd_five c p⟩
  · rw [param_eq (n := 0) h0, directionOperand_zero]
  · rw [param_eq (n := 1) h1, directionOperand_one]
  · rw [param_eq (n := 0) h0, dimOperand_zero]
  · rw [param_eq (n := 1) h1, dimOperand_one]

/-! ### The laws of an encoded codeword -/

/-- Settles O39. -/
theorem encodingFailsExactlyWithoutAnOpcode : Obligations.EncodingFailsExactlyWithoutAnOpcode := by
  intro c id cmd
  refine ⟨encodeCodeword_none, fun hne => ?_⟩
  obtain ⟨o, ho⟩ := Option.ne_none_iff_exists'.1 hne
  exact ⟨_, encodeCodeword_some ho⟩

theorem opcodeOf_of_encodeCodeword {c : Cfg} {id : Identity} {cmd : Cmd} {w : BitVec c.wCw}
    (h : encodeCodeword c id cmd = .ok w) : c.opcodeOf cmd = some (opField c w) := by
  obtain ⟨-, -, hop, -⟩ := codewordFieldsHoldTheirContents c id cmd w h
  exact hop

/-- The opcode field tells the commands of a well-formed configuration apart, whatever the identity (R139, R140). -/
theorem cmd_eq_of_opField_eq {c : Config} {id id' : Identity} {cmd cmd' : Cmd} {w w' : BitVec c.raw.wCw}
    (hcmd : cmd ∈ c.raw.commands) (hcmd' : cmd' ∈ c.raw.commands) (h : encodeCodeword c.raw id cmd = .ok w)
    (h' : encodeCodeword c.raw id' cmd' = .ok w') (hop : opField c.raw w = opField c.raw w') : cmd = cmd' :=
  c.opcodeOf_injective hcmd hcmd' (opcodeOf_of_encodeCodeword h) (hop ▸ opcodeOf_of_encodeCodeword h')

/-- The question `verify` asks of the opcode field has the answer that chose the checksum function (R129, R131). -/
theorem opcodeOf_pair_eq_opField_iff {c : Config} {id : Identity} {cmd : Cmd} {w : BitVec c.raw.wCw}
    (hcmd : cmd ∈ c.raw.commands) (h : encodeCodeword c.raw id cmd = .ok w) :
    c.raw.opcodeOf .pair = some (opField c.raw w) ↔ cmd = .pair := by
  have hop := opcodeOf_of_encodeCodeword h
  constructor
  · exact fun hpair => c.opcodeOf_injective hcmd c.raw.mem_commands_pair hop hpair
  · rintro rfl
    exact hop

/-- Settles O41: `verify` recomputes the checksum with the function that made it. -/
theorem checksumRoundTrips : Obligations.ChecksumRoundTrips := by
  intro c id cmd w hcmd h
  obtain ⟨-, -, -, -, hchk⟩ := codewordFieldsHoldTheirContents c.raw id cmd w h
  rw [verify, beq_iff_eq, hchk]
  simp only [opcodeOf_pair_eq_opField_iff hcmd h]
  split <;> rfl

/-- The identity field is wide enough for a valid identity (R100, R128). -/
theorem setWidth_setWidth_of_isValidId {c : Cfg} {id : Identity} (h : c.isValidId id = true) :
    (id.setWidth c.wId).setWidth 16 = id := by
  obtain ⟨hlt, -⟩ := (c.isValidId_iff id).1 h
  have hwId : id.toNat < 2 ^ c.wId := hlt.trans_le (Nat.pow_le_pow_right (by decide) (min_le_right 16 c.wId))
  apply BitVec.eq_of_toNat_eq
  rw [BitVec.toNat_setWidth, BitVec.toNat_setWidth, Nat.mod_eq_of_lt hwId, Nat.mod_eq_of_lt id.isLt]

/-- Settles O42. -/
theorem identityFieldRoundTrips : Obligations.IdentityFieldRoundTrips := by
  intro c id cmd w hvalid h
  obtain ⟨-, hid, -⟩ := codewordFieldsHoldTheirContents c id cmd w h
  rw [hid, setWidth_setWidth_of_isValidId hvalid]

/-- Settles O43: SYNC and ID do not depend on the command, and equal opcodes would make the command `Pair`. -/
theorem pairingDiffersFromCommandsInTheOpcode : Obligations.PairingDiffersFromCommandsInTheOpcode := by
  intro c id cmd wp wc hcmd hne hp hc
  obtain ⟨hsyncp, hidp, hopp, -⟩ := codewordFieldsHoldTheirContents c.raw id .pair wp hp
  obtain ⟨hsyncc, hidc, -⟩ := codewordFieldsHoldTheirContents c.raw id cmd wc hc
  exact ⟨hsyncp.trans hsyncc.symm, hidp.trans hidc.symm, hopp,
    fun hop => hne (cmd_eq_of_opField_eq hcmd c.raw.mem_commands_pair hc hp hop.symm)⟩

/-- Settles O44: the identity field gives the identity and the opcode field the command. -/
theorem codewordsDetermineIdentityAndCommand : Obligations.CodewordsDetermineIdentityAndCommand := by
  intro c id1 id2 cmd1 cmd2 w hid1 hid2 hcmd1 hcmd2 h1 h2
  have hback1 := identityFieldRoundTrips c.raw id1 cmd1 w hid1 h1
  have hback2 := identityFieldRoundTrips c.raw id2 cmd2 w hid2 h2
  exact ⟨hback1.symm.trans hback2, cmd_eq_of_opField_eq hcmd1 hcmd2 h1 h2 rfl⟩

/-! ### The on-air bits -/

/-- A codeword is its four fields (R131). -/
theorem fields_append (c : Cfg) (w : BitVec c.wCw) :
    syncField c w ++ idField c w ++ opField c w ++ chkField c w = w := by
  have hpre : syncField c w ++ idField c w ++ opField c w = preField c w := by
    rw [syncField, idField, opField, preField,
      BitVec.extractLsb'_append_extractLsb'_eq_extractLsb' (by omega),
      BitVec.extractLsb'_append_extractLsb'_eq_extractLsb' (by omega)]
  rw [hpre]
  exact BitVec.extractLsb'_append_extractLsb'

/-- Most significant first, two fields side by side are sent one after the other (R132). -/
theorem bitsOf_msbFirst_append {m n : Nat} (a : BitVec m) (b : BitVec n) :
    bitsOf .msbFirst (a ++ b) = bitsOf .msbFirst a ++ bitsOf .msbFirst b := by
  simp only [bitsOf, List.range_add, List.map_append, List.map_map]
  refine congrArg₂ (· ++ ·) (List.map_congr_left fun i hi => ?_) (List.map_congr_left fun i _ => ?_)
  · rw [BitVec.getMsbD_append, if_neg (Nat.not_le.2 (List.mem_range.1 hi))]
  · rw [Function.comp_apply, BitVec.getMsbD_append, if_pos (Nat.le_add_right m i), Nat.add_sub_cancel_left]

theorem bitSequence_msbFirst {c : Cfg} (h : c.bitOrder = .msbFirst) (w : BitVec c.wCw) :
    bitSequence c w = bitsOf .msbFirst w := by
  rw [bitSequence, h, ← bitsOf_msbFirst_append, ← bitsOf_msbFirst_append, ← bitsOf_msbFirst_append, fields_append]

/-- Least significant first, a field is sent from the bit at which it begins (R132). -/
theorem bitsOf_lsbFirst_extractLsb' {n : Nat} (w : BitVec n) (start len : Nat) :
    bitsOf .lsbFirst (w.extractLsb' start len) = (List.range len).map fun k => w.getLsbD (start + k) := by
  refine List.map_congr_left fun k hk => ?_
  rw [BitVec.getLsbD_extractLsb', decide_eq_true (List.mem_range.1 hk), Bool.true_and]

theorem bitSequence_lsbFirst {c : Cfg} (h : c.bitOrder = .lsbFirst) (w : BitVec c.wCw) : bitSequence c w =
    (List.range c.wSync).map (fun k => w.getLsbD (c.wId + c.wOp + c.wChk + k))
      ++ (List.range c.wId).map (fun k => w.getLsbD (c.wOp + c.wChk + k))
      ++ (List.range c.wOp).map (fun k => w.getLsbD (c.wChk + k))
      ++ (List.range c.wChk).map (fun k => w.getLsbD k) := by
  simp only [bitSequence, h, syncField, idField, opField, chkField, bitsOf_lsbFirst_extractLsb', Nat.zero_add]

/-- Settles O45: the codeword is its four fields, and most significant first their order is that of its bits. -/
theorem onAirBitsFollowTheFieldAndBitOrder : Obligations.OnAirBitsFollowTheFieldAndBitOrder :=
  fun c w => ⟨length_bitSequence c w, fun h => bitSequence_msbFirst h w, fun h => bitSequence_lsbFirst h w⟩

/-! ### The groups of the candidate checksums -/

/-- The groups cover the whole argument (R133). -/
theorem le_groupCount_mul (n : Nat) {g : Nat} (hg : 0 < g) : n ≤ groupCount n g * g := by
  have hmod := Nat.mod_lt (n + g - 1) hg
  have hdiv := Nat.div_add_mod' (n + g - 1) g
  rw [groupCount]
  omega

theorem groupCount_mono {m n : Nat} (g : Nat) (h : m ≤ n) : groupCount m g ≤ groupCount n g :=
  Nat.div_le_div_right (by omega)

/-- The padding of R133 adds zero bits only, which a slice past the end reads as well. -/
theorem checksumGroup_eq_extractLsb' {n : Nat} (g j : Nat) (p : BitVec n) :
    checksumGroup g j p = p.extractLsb' (j * g) g := by
  apply BitVec.eq_of_getLsbD_eq
  intro i hi
  have hcover := le_groupCount_mul n (Nat.zero_lt_of_lt hi)
  rw [checksumGroup, BitVec.getLsbD_extractLsb', BitVec.getLsbD_extractLsb', BitVec.getLsbD_setWidth]
  by_cases hin : j * g + i < groupCount n g * g
  · simp [hin]
  · simp [BitVec.getLsbD_of_ge p (j * g + i) (by omega)]

theorem checksumGroup_toNat {n : Nat} (g j : Nat) (p : BitVec n) :
    (checksumGroup g j p).toNat = p.toNat / 2 ^ (j * g) % 2 ^ g := by
  rw [checksumGroup_eq_extractLsb', BitVec.extractLsb'_toNat, Nat.shiftRight_eq_div_pow]

/-- A group past the end of the argument holds padding alone (R133). -/
theorem checksumGroup_of_groupCount_le {n g j : Nat} (h : groupCount n g ≤ j) (p : BitVec n) :
    checksumGroup g j p = 0 := by
  apply BitVec.eq_of_getLsbD_eq
  intro i hi
  have hcover := le_groupCount_mul n (Nat.zero_lt_of_lt hi)
  have hstart : groupCount n g * g ≤ j * g := Nat.mul_le_mul_right g h
  simp [checksumGroup_eq_extractLsb', BitVec.getLsbD_of_ge p (j * g + i) (by omega)]

theorem checksumGroup_zero (n g j : Nat) : checksumGroup g j (0 : BitVec n) = 0 := by
  rw [checksumGroup_eq_extractLsb']
  exact BitVec.extractLsb'_zero

theorem checksumGroup_setWidth {n : Nat} (k g j : Nat) (p : BitVec n) :
    checksumGroup g j (p.setWidth (n + k)) = checksumGroup g j p := by
  apply BitVec.eq_of_toNat_eq
  rw [checksumGroup_toNat, checksumGroup_toNat, BitVec.toNat_setWidth_of_le (Nat.le_add_right n k)]

theorem checksumGroups_zero (n g : Nat) :
    checksumGroups g (0 : BitVec n) = List.replicate (groupCount n g) 0 := by
  simp only [checksumGroups, checksumGroup_zero, List.map_const', List.length_range]

/-- Zero padding adds zero groups, and leaves the groups of the argument as they are (R135). -/
theorem checksumGroups_setWidth {n : Nat} (k g : Nat) (p : BitVec n) : checksumGroups g (p.setWidth (n + k))
    = checksumGroups g p ++ List.replicate (groupCount (n + k) g - groupCount n g) 0 := by
  obtain ⟨d, hd⟩ := Nat.exists_eq_add_of_le (groupCount_mono g (Nat.le_add_right n k))
  have hextra (j : Nat) : checksumGroup g (groupCount n g + j) p = 0 :=
    checksumGroup_of_groupCount_le (Nat.le_add_right _ j) p
  simp only [checksumGroups, checksumGroup_setWidth, hd, List.range_add, List.map_append, List.map_map,
    Function.comp_def, hextra, List.map_const', List.length_range, Nat.add_sub_cancel_left]

/-! ### The two candidate families -/

/-- Exclusive or counts without carry: a bit of it is the parity of that bit over the list (R135). -/
theorem getLsbD_foldr_xor {g : Nat} (l : List (BitVec g)) (i : Nat) :
    (l.foldr (fun a b => a ^^^ b) 0).getLsbD i = (l.countP (fun b => b.getLsbD i) % 2 == 1) := by
  induction l with
  | nil => simp
  | cons b l ih =>
    rw [List.foldr_cons, BitVec.getLsbD_xor, ih, List.countP_cons]
    cases b.getLsbD i with
    | false => simp
    | true =>
      obtain h | h := Nat.mod_two_eq_zero_or_one (l.countP fun b => b.getLsbD i)
      · simp [Nat.add_mod, h]
      · simp [Nat.add_mod, h]

theorem getLsbD_chkXor {n : Nat} (g : Nat) (p : BitVec n) (i : Nat) :
    (chkXor g p).getLsbD i = ((checksumGroups g p).countP (fun b => b.getLsbD i) % 2 == 1) :=
  getLsbD_foldr_xor _ i

/-- The exclusive or depends on nothing but how many groups have each bit. -/
theorem chkXor_eq_of_countP_eq {m n g : Nat} {p : BitVec m} {q : BitVec n}
    (h : ∀ i, (checksumGroups g p).countP (fun b => b.getLsbD i) = (checksumGroups g q).countP fun b => b.getLsbD i) :
    chkXor g p = chkXor g q := by
  apply BitVec.eq_of_getLsbD_eq
  intro i _
  rw [getLsbD_chkXor, getLsbD_chkXor, h]

theorem chkSum_toNat {n : Nat} (g : Nat) (p : BitVec n) :
    (chkSum g p).toNat = ((checksumGroups g p).map BitVec.toNat).sum % 2 ^ g := by
  rw [chkSum, BitVec.toNat_ofNat]

theorem chkSum_zero (n g : Nat) : chkSum g (0 : BitVec n) = 0 := by
  rw [chkSum, checksumGroups_zero]
  simp

theorem chkXor_zero (n g : Nat) : chkXor g (0 : BitVec n) = 0 := by
  apply BitVec.eq_of_getLsbD_eq
  intro i _
  rw [getLsbD_chkXor, checksumGroups_zero]
  simp [List.countP_replicate]

theorem chkSum_setWidth {n : Nat} (k g : Nat) (p : BitVec n) : chkSum g (p.setWidth (n + k)) = chkSum g p := by
  simp [chkSum, checksumGroups_setWidth]

theorem chkXor_setWidth {n : Nat} (k g : Nat) (p : BitVec n) : chkXor g (p.setWidth (n + k)) = chkXor g p :=
  chkXor_eq_of_countP_eq fun i => by simp [checksumGroups_setWidth, List.countP_replicate]

theorem chkSum_eq_of_perm {n g : Nat} {p q : BitVec n} (h : (checksumGroups g p).Perm (checksumGroups g q)) :
    chkSum g p = chkSum g q := by
  rw [chkSum, chkSum, (h.map BitVec.toNat).sum_eq]

theorem chkXor_eq_of_perm {n g : Nat} {p q : BitVec n} (h : (checksumGroups g p).Perm (checksumGroups g q)) :
    chkXor g p = chkXor g q :=
  chkXor_eq_of_countP_eq fun _ => h.countP_eq _

/-- Settles O46: the slice law holds of every group, those past the end included. -/
theorem candidateChecksumsObeyTheirLaws : Obligations.CandidateChecksumsObeyTheirLaws :=
  fun n k g p _ => ⟨fun j => .inl (checksumGroup_toNat g j p), chkSum_toNat g p, getLsbD_chkXor g p, chkSum_zero n g,
    chkXor_zero n g, chkSum_setWidth k g p, chkXor_setWidth k g p,
    fun h => ⟨chkSum_eq_of_perm h, chkXor_eq_of_perm h⟩⟩

end Sys2Proof.Machine

/-! PROOFS. The frame builder: repetition, the flat form, the gap, the unit, the packet and the waveform. -/

namespace Sys2Proof

theorem TimingPair.ext {p q : TimingPair} (hmark : p.mark = q.mark) (hspace : p.space = q.space) : p = q := by
  cases p
  cases q
  exact congrArg₂ TimingPair.mk hmark hspace

namespace Machine

/-! ### Repetition (R9) -/

@[simp] theorem rep_zero {α : Type} (l : List α) : rep l 0 = [] := rfl
@[simp] theorem rep_succ {α : Type} (l : List α) (n : Nat) : rep l (n + 1) = l ++ rep l n := rfl

theorem length_rep {α : Type} (l : List α) (n : Nat) : (rep l n).length = n * l.length := by
  induction n with
  | zero => simp
  | succ n ih => rw [rep_succ, List.length_append, ih, Nat.succ_mul, Nat.add_comm]

theorem rep_add {α : Type} (l : List α) (m n : Nat) : rep l (m + n) = rep l m ++ rep l n := by
  induction m with
  | zero => simp
  | succ m ih => rw [Nat.succ_add, rep_succ, rep_succ, ih, List.append_assoc]

theorem rep_rep {α : Type} (l : List α) (m n : Nat) : rep (rep l m) n = rep l (n * m) := by
  induction n with
  | zero => simp
  | succ n ih => rw [rep_succ, ih, ← rep_add, Nat.succ_mul, Nat.add_comm]

/-- Settles O50: a packet is `REPEAT` copies of its unit, and a repetition of a repetition is one repetition. -/
theorem repeatedPacketsAreOneLongerRepetition : Obligations.RepeatedPacketsAreOneLongerRepetition :=
  fun c w n => rep_rep (frameUnit c w) c.repeatCount n

/-! ### The flat form (R157) -/

@[simp] theorem flat_nil : flat [] = [] := rfl
@[simp] theorem flat_cons (p : TimingPair) (l : List TimingPair) : flat (p :: l) = p.mark :: p.space :: flat l := rfl

@[simp] theorem flat_append (l m : List TimingPair) : flat (l ++ m) = flat l ++ flat m := by
  induction l with
  | nil => rfl
  | cons p l ih => simp [ih]

@[simp] theorem length_flat (l : List TimingPair) : (flat l).length = 2 * l.length := by
  induction l with
  | nil => rfl
  | cons p l ih => simp [ih, Nat.mul_succ]

/-- Pair `k` stands at positions `2k` and `2k + 1`. -/
theorem flat_getElem? {l : List TimingPair} {k : Nat} {p : TimingPair} (h : l[k]? = some p) :
    (flat l)[2 * k]? = some p.mark ∧ (flat l)[2 * k + 1]? = some p.space := by
  induction l generalizing k with
  | nil => simp at h
  | cons q l ih =>
    cases k with
    | zero =>
      obtain rfl : q = p := by simpa using h
      simp
    | succ k => simpa [Nat.mul_succ] using ih (by simpa using h)

theorem flat_injective : Function.Injective flat := by
  intro l m h
  induction l generalizing m with
  | nil => cases m with
    | nil => rfl
    | cons q m => simp at h
  | cons p l ih => cases m with
    | nil => simp at h
    | cons q m =>
      obtain ⟨hmark, hspace, hrest⟩ : p.mark = q.mark ∧ p.space = q.space ∧ flat l = flat m := by simpa using h
      rw [ih hrest, TimingPair.ext hmark hspace]

/-- Settles O53. -/
theorem flatFormIsFaithful : Obligations.FlatFormIsFaithful :=
  fun l => ⟨length_flat l, fun _ _ h => flat_getElem? h, fun _ h => flat_injective h⟩

/-! ### Durations (R159) -/

@[simp] theorem duration_nil : duration [] = 0 := rfl

@[simp] theorem duration_cons (p : TimingPair) (l : List TimingPair) :
    duration (p :: l) = p.mark + p.space + duration l := by
  simp [duration, Nat.add_assoc]

@[simp] theorem duration_append (l m : List TimingPair) : duration (l ++ m) = duration l + duration m := by
  simp [duration]

theorem duration_rep (l : List TimingPair) (n : Nat) : duration (rep l n) = n * duration l := by
  induction n with
  | zero => simp
  | succ n ih => rw [rep_succ, duration_append, ih, Nat.succ_mul, Nat.add_comm]

/-- Each bit lasts as long as its symbol (R150). -/
theorem duration_map_symbol (c : Cfg) (bs : List Bool) : duration (bs.map (symbol c)) =
    bs.count true * (c.t1.mark + c.t1.space) + bs.count false * (c.t0.mark + c.t0.space) := by
  induction bs with
  | nil => simp
  | cons b bs ih =>
    rw [List.map_cons, duration_cons, ih]
    cases b with
    | false => simp [symbol, Nat.succ_mul]; omega
    | true => simp [symbol, Nat.succ_mul]; omega

theorem count_false_bitSequence (c : Cfg) (w : BitVec c.wCw) :
    (bitSequence c w).count false = c.wCw - (bitSequence c w).count true := by
  have hlen : (bitSequence c w).count true + (bitSequence c w).count false = c.wCw :=
    (List.count_true_add_count_false _).trans (length_bitSequence c w)
  omega

@[simp] theorem length_dataSymbols (c : Cfg) (w : BitVec c.wCw) : (dataSymbols c w).length = c.wCw := by
  simp [dataSymbols]

/-! ### The gap (R153) -/

@[simp] theorem addGap_concat (gap : Nat) (l : List TimingPair) (p : TimingPair) :
    addGap gap (l ++ [p]) = l ++ [⟨p.mark, p.space + gap⟩] := by
  simp [addGap]

/-- The gap falls on the last part of a list. -/
theorem addGap_append_of_ne_nil (gap : Nat) (l : List TimingPair) {m : List TimingPair} (h : m ≠ []) :
    addGap gap (l ++ m) = l ++ addGap gap m := by
  obtain ⟨m, p, rfl⟩ := m.eq_nil_or_concat'.resolve_left h
  rw [← List.append_assoc, addGap_concat, addGap_concat, List.append_assoc]

@[simp] theorem length_addGap (gap : Nat) (l : List TimingPair) : (addGap gap l).length = l.length := by
  obtain rfl | ⟨l, p, rfl⟩ := l.eq_nil_or_concat'
  · rfl
  · simp

theorem duration_addGap (gap : Nat) {l : List TimingPair} (h : l ≠ []) :
    duration (addGap gap l) = duration l + gap := by
  obtain ⟨l, p, rfl⟩ := l.eq_nil_or_concat'.resolve_left h
  simp [Nat.add_assoc]

theorem addGap_injective (gap : Nat) : Function.Injective (addGap gap) := by
  intro l m h
  have hlen : l.length = m.length := by simpa using congrArg List.length h
  obtain rfl | ⟨l, p, rfl⟩ := l.eq_nil_or_concat'
  · exact (List.length_eq_zero_iff.1 hlen.symm).symm
  · obtain rfl | ⟨m, q, rfl⟩ := m.eq_nil_or_concat'
    · simp at hlen
    · rw [addGap_concat, addGap_concat] at h
      obtain ⟨hinit, hlast⟩ := List.append_inj' h rfl
      obtain ⟨hmark, hspace⟩ : p.mark = q.mark ∧ p.space = q.space := by simpa using hlast
      rw [hinit, TimingPair.ext hmark hspace]

/-! ### The unit (R152, R153) -/

theorem frameBody_ne_nil (c : Config) (w : BitVec c.raw.wCw) : frameBody c.raw w ≠ [] := by
  simp [frameBody, dataSymbols_ne_nil c w]

/-- With a trailer, the gap is the trailer's and the data symbols are sent as they are. -/
theorem frameUnit_of_trailer_ne_nil {c : Cfg} (h : c.trailer ≠ []) (w : BitVec c.wCw) :
    frameUnit c w = c.preamble ++ (dataSymbols c w ++ addGap c.gap c.trailer) := by
  rw [frameUnit, frameBody, addGap_append_of_ne_nil _ _ h, List.append_assoc]

/-- Without a trailer, the gap falls on the last data symbol. -/
theorem frameUnit_of_trailer_nil {c : Config} (h : c.raw.trailer = []) (w : BitVec c.raw.wCw) :
    frameUnit c.raw w = c.raw.preamble ++ addGap c.raw.gap (dataSymbols c.raw w) := by
  rw [frameUnit, frameBody, h, List.append_nil, addGap_append_of_ne_nil _ _ (dataSymbols_ne_nil c w)]

theorem length_frameUnit (c : Cfg) (w : BitVec c.wCw) :
    (frameUnit c w).length = c.preamble.length + c.wCw + c.trailer.length := by
  simp [frameUnit, frameBody, Nat.add_assoc]

theorem duration_frameUnit (c : Config) (w : BitVec c.raw.wCw) : duration (frameUnit c.raw w) =
    duration c.raw.preamble + duration (dataSymbols c.raw w) + duration c.raw.trailer + c.raw.gap := by
  rw [frameUnit, duration_addGap _ (frameBody_ne_nil c w), frameBody, duration_append, duration_append]

/-- Settles O48: the body is not empty, so it ends in a pair, and the gap goes to that one. -/
theorem unitIsTheBodyWithGapOnItsFinalSpace : Obligations.UnitIsTheBodyWithGapOnItsFinalSpace := by
  intro c w
  obtain ⟨l, p, hbody⟩ := (frameBody c.raw w).eq_nil_or_concat'.resolve_left (frameBody_ne_nil c w)
  exact ⟨l, p, hbody, by rw [frameUnit, hbody, addGap_concat]⟩

/-- Settles O49. -/
theorem frameSizesAndDurations : Obligations.FrameSizesAndDurations :=
  fun c w => ⟨length_frameUnit c.raw w, length_rep _ _,
    count_false_bitSequence c.raw w ▸ duration_map_symbol c.raw (bitSequence c.raw w),
    duration_frameUnit c w, duration_rep _ _⟩

/-! ### From the unit back to the codeword (R163) -/

theorem bitsOf_injective (order : BitOrder) (n : Nat) : Function.Injective (bitsOf order (n := n)) := by
  intro f g h
  cases order with
  | msbFirst => exact BitVec.eq_of_getMsbD_eq fun i hi => List.map_inj_left.1 h i (List.mem_range.2 hi)
  | lsbFirst => exact BitVec.eq_of_getLsbD_eq fun i hi => List.map_inj_left.1 h i (List.mem_range.2 hi)

/-- The four fields of an on-air sequence have fixed lengths, so the sequence splits into them in one way only. -/
theorem bitSequence_injective (c : Cfg) : Function.Injective (bitSequence c) := by
  intro w w' h
  obtain ⟨h, hchk⟩ := List.append_inj h (by simp)
  obtain ⟨h, hop⟩ := List.append_inj h (by simp)
  obtain ⟨hsync, hid⟩ := List.append_inj h (by simp)
  rw [← fields_append c w, ← fields_append c w', bitsOf_injective _ _ hsync, bitsOf_injective _ _ hid,
    bitsOf_injective _ _ hop, bitsOf_injective _ _ hchk]

/-- The two symbols differ (`wf_symbols_distinct`, R41). -/
theorem symbol_injective (c : Config) : Function.Injective (symbol c.raw)
  | false, false, _ => rfl
  | true, true, _ => rfl
  | false, true, h => absurd h c.symbols_distinct
  | true, false, h => absurd h.symm c.symbols_distinct

theorem dataSymbols_injective (c : Config) : Function.Injective (dataSymbols c.raw) :=
  (symbol_injective c).list_map.comp (bitSequence_injective c.raw)

theorem frameBody_injective (c : Config) : Function.Injective (frameBody c.raw) := fun _ _ h =>
  dataSymbols_injective c (List.append_cancel_left (List.append_cancel_right h))

theorem frameUnit_injective (c : Config) : Function.Injective (frameUnit c.raw) :=
  (addGap_injective c.raw.gap).comp (frameBody_injective c)

/-- Settles O51: past the preamble stand the data symbols, with the gap on the last when no trailer follows. -/
theorem codewordIsRecoverableFromTheUnit : Obligations.CodewordIsRecoverableFromTheUnit := by
  intro c w
  refine ⟨fun htr => ?trailer, fun htr => ?noTrailer, fun w' h => frameUnit_injective c h⟩
  case trailer =>
    rw [frameUnit_of_trailer_ne_nil htr, List.drop_left, List.take_left' (length_dataSymbols c.raw w)]
    rfl
  case noTrailer =>
    obtain ⟨l, p, hdata⟩ := (dataSymbols c.raw w).eq_nil_or_concat'.resolve_left (dataSymbols_ne_nil c w)
    refine ⟨l, p, hdata, ?_⟩
    rw [frameUnit_of_trailer_nil htr, List.drop_left, List.take_of_length_le (by simp), hdata, addGap_concat]

/-! ### The packet in the latch (R155, R160) -/

/-- A packet in a sound response is the one of some codeword: the other two kinds of response hold none. -/
theorem Response.Sound.exists_packet {c : Cfg} {r : Response} {p : EncodedPacket} (h : r.Sound c)
    (hp : r.pkt = some p) : ∃ w : BitVec c.wCw, r = packetResponse c w ∧ p = frameBuild c w := by
  obtain ⟨e, -, -, rfl⟩ | ⟨v, -, rfl⟩ | ⟨id, cmd, o, -, -, -, rfl⟩ := h
  · exact nomatch hp
  · exact nomatch hp
  · exact ⟨_, rfl, (Option.some.inj hp).symm⟩

/-- Settles O38: the latch holds the response of a codeword, and `frame_build` writes each field from that codeword. -/
theorem packetsInTheLatchAgreeWithTheirCodeword : Obligations.PacketsInTheLatchAgreeWithTheirCodeword := by
  intro s r p hinv hlast hp
  obtain ⟨w, rfl, rfl⟩ := (hinv r hlast).exists_packet hp
  exact ⟨⟨w, rfl, rfl⟩, rfl, rfl, rfl, rfl, rfl, rfl⟩

/-! ### The waveform (R158) -/

@[simp] theorem startTime_zero (f : List Nat) : startTime f 0 = 0 := by simp [startTime]

theorem startTime_flat_cons_one (p : TimingPair) (l : List TimingPair) : startTime (flat (p :: l)) 1 = p.mark := by
  simp [startTime]

/-- Behind its first pair, a list runs as its rest does, later by the length of that pair. -/
theorem startTime_flat_cons_add_two (p : TimingPair) (l : List TimingPair) (i : Nat) :
    startTime (flat (p :: l)) (i + 2) = p.mark + p.space + startTime (flat l) i := by
  simp [startTime, Nat.add_assoc]

theorem startTime_mono (f : List Nat) : Monotone (startTime f) := f.monotone_sum_take

/-- The time `t` lies in the mark of some pair. -/
def InMark (l : List TimingPair) (t : Nat) : Prop :=
  ∃ k < l.length, startTime (flat l) (2 * k) ≤ t ∧ t < startTime (flat l) (2 * k + 1)

/-- A time is in a mark of a list when it is in the first one, or in a mark of the rest. -/
theorem inMark_cons {p : TimingPair} {l : List TimingPair} {t : Nat} :
    InMark (p :: l) t ↔ t < p.mark ∨ p.mark + p.space ≤ t ∧ InMark l (t - (p.mark + p.space)) := by
  constructor
  · rintro ⟨k, hk, hlo, hhi⟩
    cases k with
    | zero => exact .inl (hhi.trans_eq (startTime_flat_cons_one p l))
    | succ k =>
      simp only [Nat.mul_succ, Nat.add_right_comm, startTime_flat_cons_add_two] at hlo hhi
      exact .inr ⟨by omega, k, Nat.lt_of_succ_lt_succ hk, by omega, by omega⟩
  · rintro (h | ⟨hle, k, hk, hlo, hhi⟩)
    · exact ⟨0, Nat.succ_pos _, by simp, h.trans_eq (startTime_flat_cons_one p l).symm⟩
    · refine ⟨k + 1, Nat.succ_lt_succ hk, ?_⟩
      simp only [Nat.mul_succ, Nat.add_right_comm, startTime_flat_cons_add_two]
      omega

theorem carrierAfterStart_iff (l : List TimingPair) (t : Nat) : carrierAfterStart l t = true ↔ InMark l t := by
  induction l generalizing t with
  | nil => simp [carrierAfterStart, InMark]
  | cons p l ih =>
    rw [carrierAfterStart, inMark_cons, ← ih]
    split
    · next hmark => simp [hmark]
    · next hmark =>
      split
      · next hspace => simp [hmark, hspace]
      · next hspace => simp [hmark, Nat.le_of_not_lt hspace]

/-- No time of a mark is a time of a space: elements of the flat form begin in their order. -/
theorem not_inMark_of_space {l : List TimingPair} {t k : Nat} (hlo : startTime (flat l) (2 * k + 1) ≤ t)
    (hhi : t < startTime (flat l) (2 * k + 2)) : ¬InMark l t := by
  rintro ⟨j, -, hjlo, hjhi⟩
  obtain hjk | hkj := Nat.lt_or_ge k j
  · have hle := startTime_mono (flat l) (show 2 * k + 2 ≤ 2 * j by omega)
    omega
  · have hle := startTime_mono (flat l) (show 2 * j + 1 ≤ 2 * k + 1 by omega)
    omega

theorem not_inMark_of_end_le {l : List TimingPair} {t : Nat} (h : startTime (flat l) (flat l).length ≤ t) :
    ¬InMark l t := by
  rintro ⟨j, hj, -, hjhi⟩
  have hle := startTime_mono (flat l) (show 2 * j + 1 ≤ (flat l).length by rw [length_flat]; omega)
  omega

theorem carrierOn_natCast_eq_false {l : List TimingPair} {t : Nat} (h : ¬InMark l t) : carrierOn l (t : Int) = false := by
  rw [carrierOn_natCast, Bool.eq_false_iff, Ne, carrierAfterStart_iff]
  exact h

/-- Settles O54: from time 0 on the carrier is on in the marks alone, and before it the carrier is off. -/
theorem carrierIsOnExactlyDuringMarks : Obligations.CarrierIsOnExactlyDuringMarks := by
  intro l t
  cases t with
  | ofNat t =>
    simp only [Int.ofNat_eq_natCast, Int.ofNat_le, Int.ofNat_lt]
    exact ⟨carrierAfterStart_iff l t, fun _ _ hlo hhi => carrierOn_natCast_eq_false (not_inMark_of_space hlo hhi),
      fun h => absurd h (by omega), fun h => carrierOn_natCast_eq_false (not_inMark_of_end_le h)⟩
  | negSucc t =>
    refine ⟨iff_of_false Bool.false_ne_true ?_, fun _ _ _ _ => rfl, fun _ => rfl, fun _ => rfl⟩
    rintro ⟨k, -, hlo, -⟩
    omega

end Machine

end Sys2Proof

/-! PROOFS. The build requests that succeed, and what a step, a request and a run do to the state. -/

namespace Sys2Proof.Machine

/-! ### The build procedure (R180) -/

@[simp] theorem CmdSource.command_pair (c : Cfg) : CmdSource.pair.command c = .ok .pair := rfl

@[simp] theorem CmdSource.command_coded (c : Cfg) (v : BitVec 4) (p : Byte) :
    (CmdSource.coded v p).command c = validateCmd c v p := rfl

/-- The build procedure reads its source only for the command. -/
theorem build_congr {c : Cfg} {src src' : CmdSource} (h : src.command c = src'.command c) (idv : Word) :
    build c src idv = build c src' idv := by
  rw [build, build, h]

/-- With a valid identity, a valid command and an opcode, no check of R180 fails and the packet is answered. -/
theorem build_idOperand {c : Cfg} {src : CmdSource} {v : Identity} {cmd : Cmd} {o : BitVec c.wOp}
    (hv : c.isValidId v = true) (hcmd : src.command c = .ok cmd) (ho : c.opcodeOf cmd = some o) :
    build c src (idOperand v)
      = packetResponse c (codewordOf c v o (if cmd = .pair then c.chkPair else c.chkCmd)) := by
  simp only [build, validateId_idOperand hv, hcmd, encodeCodeword_some ho]
  rw [preChecksum_append_checksum, Response.packet_eq_packetResponse]

/-- `Pair` takes its checksum from `CHK_PAIR` (R129). -/
theorem build_pair_idOperand {c : Cfg} {v : Identity} {o : BitVec c.wOp} (hv : c.isValidId v = true)
    (ho : c.opcodeOf .pair = some o) :
    build c .pair (idOperand v) = packetResponse c (codewordOf c v o c.chkPair) := by
  rw [build_idOperand hv (CmdSource.command_pair c) ho, if_pos rfl]

/-- Every command but `Pair` takes its checksum from `CHK_CMD` (R129). -/
theorem build_coded_idOperand {c : Cfg} {variant : BitVec 4} {p : Byte} {v : Identity} {cmd : Cmd} {o : BitVec c.wOp}
    (hv : c.isValidId v = true) (hcmd : validateCmd c variant p = .ok cmd) (hne : cmd ≠ .pair)
    (ho : c.opcodeOf cmd = some o) :
    build c (.coded variant p) (idOperand v) = packetResponse c (codewordOf c v o c.chkCmd) := by
  rw [build_idOperand hv ((CmdSource.command_coded c variant p).trans hcmd) ho, if_neg hne]

/-! ### The build requests (R181 to R187) -/

section BuildRequests
variable (p : Byte) (idv : Word) (s : State)

theorem exec_buildPair : exec (.buildPair idv) s = .next (s.answered (build s.cfg.raw .pair idv)) := rfl

theorem exec_setSpeed : exec (.setSpeed p idv) s = .next (s.answered (build s.cfg.raw (.coded 0 p) idv)) := rfl

theorem exec_setDirection : exec (.setDirection p idv) s = .next (s.answered (build s.cfg.raw (.coded 1 p) idv)) := rfl

theorem exec_toggleLight : exec (.toggleLight idv) s = .next (s.answered (build s.cfg.raw (.coded 2 0) idv)) := rfl

theorem exec_dimStep : exec (.dimStep p idv) s = .next (s.answered (build s.cfg.raw (.coded 3 p) idv)) := rfl

theorem exec_breezePreset : exec (.breezePreset p idv) s = .next (s.answered (build s.cfg.raw (.coded 4 p) idv)) := rfl

theorem exec_cmdPair : exec (.cmdPair idv) s = .next (s.answered (build s.cfg.raw (.coded 5 0) idv)) := rfl

/-- The two pairing instructions are one: variant 5 names the command of BUILD_PAIR (R188). -/
theorem exec_cmdPair_eq_exec_buildPair : exec (.cmdPair idv) s = exec (.buildPair idv) s := by
  have hsrc : (CmdSource.coded 5 0).command s.cfg.raw = CmdSource.pair.command s.cfg.raw := by
    rw [CmdSource.command_coded, validateCmd_five, CmdSource.command_pair]
  rw [exec_cmdPair, exec_buildPair, build_congr hsrc]

end BuildRequests

/-- Settles O15. -/
theorem buildPairWritesThePairingPacket : Obligations.BuildPairWritesThePairingPacket := by
  intro s v o hv ho
  rw [exec_buildPair, build_pair_idOperand hv ho]

/-- Settles O16: a level is its own PARAM, since 8 bits hold it. -/
theorem setSpeedWritesTheSpeedPacket : Obligations.SetSpeedWritesTheSpeedPacket := by
  intro s v level o hv ho
  have hparam : (BitVec.ofNat 8 level.val).toNat = level.val := Nat.mod_eq_of_lt (level.isLt.trans (by decide))
  have hcmd := (validateCmd_zero s.cfg.raw _).trans (speedOperand_of_level hparam)
  rw [exec_setSpeed, build_coded_idOperand hv hcmd nofun ho]

/-- Settles O17. -/
theorem setDirectionWritesTheDirectionPacket : Obligations.SetDirectionWritesTheDirectionPacket := by
  intro s v d o hv ho
  cases d with
  | fwd =>
    have hcmd := (validateCmd_one s.cfg.raw 0).trans directionOperand_zero
    rw [exec_setDirection, build_coded_idOperand hv hcmd nofun ho]
  | rev =>
    have hcmd := (validateCmd_one s.cfg.raw 1).trans directionOperand_one
    rw [exec_setDirection, build_coded_idOperand hv hcmd nofun ho]

/-- Settles O18. -/
theorem toggleLightWritesTheLightPacket : Obligations.ToggleLightWritesTheLightPacket := by
  intro s v o hv ho
  rw [exec_toggleLight, build_coded_idOperand hv (validateCmd_two _ 0) nofun ho]

/-- Settles O19. -/
theorem dimStepWritesTheDimPacket : Obligations.DimStepWritesTheDimPacket := by
  intro s v d o hv ho
  cases d with
  | up =>
    have hcmd := (validateCmd_three s.cfg.raw 0).trans dimOperand_zero
    rw [exec_dimStep, build_coded_idOperand hv hcmd nofun ho]
  | down =>
    have hcmd := (validateCmd_three s.cfg.raw 1).trans dimOperand_one
    rw [exec_dimStep, build_coded_idOperand hv hcmd nofun ho]

/-- Settles O20. -/
theorem breezePresetWritesThePresetPacket : Obligations.BreezePresetWritesThePresetPacket := by
  intro s v p o hv hp ho
  have hcmd := (validateCmd_four s.cfg.raw p).trans (presetOperand_of_mem hp)
  rw [exec_breezePreset, build_coded_idOperand hv hcmd nofun ho]

/-- Settles O21: CMD_PAIR is BUILD_PAIR. -/
theorem cmdPairWritesThePairingPacket : Obligations.CmdPairWritesThePairingPacket := by
  intro s v o hv ho
  rw [exec_cmdPair_eq_exec_buildPair]
  exact buildPairWritesThePairingPacket s v o hv ho

/-- Settles O22: the two words encode the two pairing instructions, which are one. -/
theorem pairSpellingsAreAnsweredAlike : Obligations.PairSpellingsAreAnsweredAlike := by
  intro idv s
  have hbuild : decode ⟨0x30000000, idv⟩ = .ok (.buildPair idv) := decode_encode (.buildPair idv)
  have hcmd : decode ⟨0x45000000, idv⟩ = .ok (.cmdPair idv) := decode_encode (.cmdPair idv)
  rw [serve_of_decode_ok hbuild, serve_of_decode_ok hcmd, exec_cmdPair_eq_exec_buildPair]
  rfl

/-! ### What a request and a step leave (R189 to R191) -/

/-- Settles O31. -/
theorem requestsWriteOnlyTheLatch : Obligations.RequestsWriteOnlyTheLatch := by
  intro i s t ht
  obtain ⟨hgen, h⟩ | ⟨hgen, r, h⟩ := exec_cases i s
  · obtain rfl := Host.Outcome.next.inj (h.symm.trans ht)
    exact ⟨rfl, rfl, ⟨_, rfl⟩, fun hne => absurd hgen hne, fun _ => rfl⟩
  · obtain rfl := Host.Outcome.next.inj (h.symm.trans ht)
    exact ⟨rfl, rfl, ⟨_, rfl⟩, fun _ => rfl, fun heq => absurd heq hgen⟩

/-- Every step answers a next state and leaves the port idle. -/
theorem step_next_port (s : State) : ∃ t, step s = .next t ∧ t.port = none := by
  obtain ⟨hidle, h⟩ | ⟨-, -, -, h⟩ | ⟨-, i, -, -, h⟩ := step_cases s
  · exact ⟨s, h, hidle⟩
  · exact ⟨_, h, State.fail_port s _⟩
  · obtain ⟨t, ht, -⟩ := exec_next_cfg i s
    obtain ⟨-, hport, -⟩ := requestsWriteOnlyTheLatch i s t ht
    exact ⟨t, h.trans ht, hport⟩

/-- Settles O32. -/
theorem everyRequestAndEveryRunEnds : Obligations.EveryRequestAndEveryRunEnds :=
  ⟨step_next_port, serveAll_next_cfg⟩

/-! ### A step, by what the port holds -/

theorem step_of_port_none {s : State} (h : s.port = none) : step s = .next s := by
  rw [step, h]

theorem step_of_decode_ok {s : State} {r : Request} {i : Instr} (hp : s.port = some r) (hd : decode r = .ok i) :
    step s = exec i s := by
  simp only [step, hp, hd]

theorem decodeTableWord_eq_some_iff {nbits w : Nat} {i : Instr} :
    decodeTableWord nbits w = some i ↔ decode (requestOfTableWord nbits w) = .ok i := by
  unfold decodeTableWord
  split
  · next j hj => simp [hj]
  · next e he => simp [he]

theorem State.present_of_port_none {s : State} (h : s.port = none) (r : Request) :
    s.present r = some { s with port := some r } := by
  rw [State.present, h]

theorem State.present_of_port_some {s : State} {waiting : Request} (h : s.port = some waiting) (r : Request) :
    s.present r = none := by
  rw [State.present, h]

/-- Settles O9. -/
theorem stepRunsTheDecodedRequest : Obligations.StepRunsTheDecodedRequest := by
  refine ⟨fun _ _ _ => step_of_decode_ok, fun s nbits w i hw => ?_, fun _ => step_of_port_none,
    fun s r hidle => ⟨_, State.present_of_port_none hidle r, rfl⟩, fun _ r _ => (State.present_of_port_some · r)⟩
  exact step_of_decode_ok (s.withFetchWord_port nbits w) (decodeTableWord_eq_some_iff.1 hw)

end Sys2Proof.Machine

/-! PROOFS. Boot, the status codes, malformed requests, and the errors of a decoded request in the order of R218. -/

namespace Sys2Proof

/-! ### The status codes (R210) -/

theorem Status.ofCode?_code (st : Status) : Status.ofCode? st.code = some st := by cases st <;> rfl

theorem Status.ofCode?_eq_none_iff (v : BitVec 4) : Status.ofCode? v = none ↔ 7 ≤ v.toNat := by
  revert v
  decide

/-- Settles O59. -/
theorem statusCodesAreTheTable : Obligations.StatusCodesAreTheTable :=
  ⟨Status.ofCode?_code, Status.ofCode?_eq_none_iff, rfl, rfl, rfl, rfl, rfl, rfl, rfl⟩

/-! ### The causes of MALFORMED_REQUEST (R215) -/

/-- The six causes of R215, over the decoder's own fields. -/
def Request.MalformedCause (r : Request) : Prop :=
  ¬(1 ≤ r.func.toNat ∧ r.func.toNat ≤ 4) ∨ (r.func.toNat = 4 ∧ 6 ≤ r.variant.toNat) ∨ r.rsvd ≠ 0 ∨
    (r.func.toNat ≠ 4 ∧ r.variantParam ≠ 0) ∨
    (r.func.toNat = 4 ∧ (r.variant.toNat = 2 ∨ r.variant.toNat = 5) ∧ r.param ≠ 0) ∨
    (r.func.toNat = 1 ∧ r.idv ≠ 0)

/-- The encoder writes FUNC and VARIANT from the tables of R72 and R73 and zero in every must-be-zero field (R75). -/
theorem not_malformedCause_encode (i : Instr) : ¬(encode i).MalformedCause := by
  cases i <;> simp [Request.MalformedCause, encode, Request.variantParam_eq_zero_iff]

/-- A request that decodes is an encoding, so it has no cause. -/
theorem decode_of_malformedCause {r : Request} (h : r.MalformedCause) : decode r = .error .malformedRequest := by
  cases hd : decode r with
  | error e => rw [Machine.decode_error hd]
  | ok i => exact absurd (encodeOfDecodeIsTheRequest r i hd ▸ h) (not_malformedCause_encode i)

theorem decodeBuildCmd_isOk {r : Request} (hvariant : r.variant.toNat < 6)
    (hparam : r.variant.toNat = 2 ∨ r.variant.toNat = 5 → r.param = 0) : ∃ i, decodeBuildCmd r = .ok i := by
  unfold decodeBuildCmd
  split
  · exact ⟨_, rfl⟩
  · exact ⟨_, rfl⟩
  · next hv => exact ⟨_, if_pos (hparam (.inl hv))⟩
  · exact ⟨_, rfl⟩
  · exact ⟨_, rfl⟩
  · next hv => exact ⟨_, if_pos (hparam (.inr hv))⟩
  · simp only [imp_false] at *
    omega

/-- Without a cause, each FUNC of R72 reaches an accepting arm of the decoder. -/
theorem decode_isOk_of_not_malformedCause {r : Request} (h : ¬r.MalformedCause) : ∃ i, decode r = .ok i := by
  simp only [Request.MalformedCause, not_or, not_and, not_not, not_le] at h
  obtain ⟨hfunc, hvariant, hrsvd, hunused, hparam, hidv⟩ := h
  unfold decode
  rw [if_pos hrsvd]
  split
  · next hf => exact ⟨_, if_pos ⟨hunused (by omega), hidv hf⟩⟩
  · next hf => exact ⟨_, if_pos (hunused (by omega))⟩
  · next hf => exact ⟨_, if_pos (hunused (by omega))⟩
  · next hf => exact decodeBuildCmd_isOk (hvariant hf) (hparam hf)
  · simp only [imp_false] at *
    omega

end Sys2Proof

namespace Sys2Proof.Machine

/-! ### Boot (R229, R242) -/

theorem State.boot_of_wf {c : Cfg} (h : c.wf = true) : State.boot c = .next { State.reset with cfg := ⟨c, h⟩ } :=
  dif_pos h

theorem State.boot_of_not_wf {c : Cfg} (h : ¬c.wf = true) : State.boot c = .refused .illFormedConfig := dif_neg h

/-- Settles O3. -/
theorem bootRefusesExactlyIllFormedConfigurations : Obligations.BootRefusesExactlyIllFormedConfigurations :=
  fun _ => ⟨fun h => State.boot_of_not_wf (Bool.eq_false_iff.1 h), fun h => ⟨_, State.boot_of_wf h, rfl, rfl, rfl⟩⟩

/-! ### A step with a request in the port -/

theorem step_of_decode_error {s : State} {r : Request} {e : Status} (hp : s.port = some r) (hd : decode r = .error e) :
    step s = .next (s.answered (Response.error e)) := by
  have hfail : step s = .next (s.fail e) := by simp only [step, hp, hd]
  exact hfail

/-- A request in the port is malformed or runs as an instruction (R77, R190). -/
theorem step_cases_of_port {s : State} {r : Request} (hp : s.port = some r) :
    (decode r = .error .malformedRequest ∧ step s = .next (s.answered (Response.error .malformedRequest))) ∨
      ∃ i, decode r = .ok i ∧ step s = exec i s := by
  cases hd : decode r with
  | error e =>
    obtain rfl := decode_error hd
    exact .inl ⟨rfl, step_of_decode_error hp hd⟩
  | ok i => exact .inr ⟨i, rfl, step_of_decode_ok hp hd⟩

/-- Settles O7. -/
theorem malformedRequestsAreExactlyTheSixCauses : Obligations.MalformedRequestsAreExactlyTheSixCauses :=
  fun r => ⟨fun hcause _ hp => step_of_decode_error hp (decode_of_malformedCause (r := r) hcause),
    fun hnone => decode_isOk_of_not_malformedCause (r := r) hnone⟩

/-- The latch holds one response: two accounts of one instruction's outcome agree on it. -/
theorem latch_unique {i : Instr} {s t u : State} {r r' : Response} (ht : exec i s = .next t) (hr : t.last = some r)
    (hu : exec i s = .next u) (hr' : u.last = some r') : r = r' := by
  obtain rfl := Host.Outcome.next.inj (ht.symm.trans hu)
  exact Option.some.inj (hr.symm.trans hr')

/-- An error status stands alone in a sound response (R45). -/
theorem Response.Sound.eq_error_of_ne_ok {c : Cfg} {r : Response} (h : r.Sound c) (hne : r.status ≠ .ok) :
    r = Response.error r.status := by
  obtain ⟨e, -, -, rfl⟩ | ⟨v, -, rfl⟩ | ⟨id, cmd, o, -, -, -, rfl⟩ := h
  · rfl
  · exact absurd rfl hne
  · exact absurd rfl hne

/-- An instruction that does not answer OK is not GEN_ID, so it takes no draw (R45, R56, R219). -/
theorem exec_of_status_ne_ok {i : Instr} {s t : State} {r : Response} (ht : exec i s = .next t) (hr : t.last = some r)
    (hne : r.status ≠ .ok) : r = Response.error r.status ∧ t = s.answered r := by
  obtain ⟨u, hu, hinv⟩ := exec_inv i s
  obtain rfl := Host.Outcome.next.inj (ht.symm.trans hu)
  refine ⟨(hinv r hr).eq_error_of_ne_ok hne, ?_⟩
  obtain ⟨-, h⟩ | ⟨-, r', h⟩ := exec_cases i s
  · obtain rfl := latch_unique ht hr h rfl
    exact absurd rfl hne
  · obtain rfl := latch_unique ht hr h rfl
    exact Host.Outcome.next.inj (ht.symm.trans h)

/-- Settles O29: a malformed request answers an error at once, and an instruction's response is sound. -/
theorem failedRequestsLeaveTheStatusAlone : Obligations.FailedRequestsLeaveTheStatusAlone := by
  intro r s t resp hp ht hl hne
  obtain ⟨-, h⟩ | ⟨i, -, h⟩ := step_cases_of_port hp
  · obtain rfl := Host.Outcome.next.inj (h.symm.trans ht)
    obtain rfl := Option.some.inj hl
    exact ⟨rfl, rfl⟩
  · exact exec_of_status_ne_ok (h.symm.trans ht) hl hne

/-! ### The build requests and their commands (R180 to R187) -/

/-- The instructions that run the build procedure, each with its source of the command and its identity operand. -/
inductive Builds : Instr → CmdSource → Word → Prop
  | buildPair (idv : Word) : Builds (.buildPair idv) .pair idv
  | setSpeed (p : Byte) (idv : Word) : Builds (.setSpeed p idv) (.coded 0 p) idv
  | setDirection (p : Byte) (idv : Word) : Builds (.setDirection p idv) (.coded 1 p) idv
  | toggleLight (idv : Word) : Builds (.toggleLight idv) (.coded 2 0) idv
  | dimStep (p : Byte) (idv : Word) : Builds (.dimStep p idv) (.coded 3 p) idv
  | breezePreset (p : Byte) (idv : Word) : Builds (.breezePreset p idv) (.coded 4 p) idv
  | cmdPair (idv : Word) : Builds (.cmdPair idv) (.coded 5 0) idv

/-- The nine requests: the two identity requests, and those that build. -/
theorem instr_cases (i : Instr) : i = .genId ∨ (∃ idv, i = .validateId idv) ∨ ∃ src idv, Builds i src idv := by
  cases i with
  | genId => exact .inl rfl
  | validateId idv => exact .inr (.inl ⟨idv, rfl⟩)
  | buildPair idv => exact .inr (.inr ⟨_, _, .buildPair idv⟩)
  | setSpeed p idv => exact .inr (.inr ⟨_, _, .setSpeed p idv⟩)
  | setDirection p idv => exact .inr (.inr ⟨_, _, .setDirection p idv⟩)
  | toggleLight idv => exact .inr (.inr ⟨_, _, .toggleLight idv⟩)
  | dimStep p idv => exact .inr (.inr ⟨_, _, .dimStep p idv⟩)
  | breezePreset p idv => exact .inr (.inr ⟨_, _, .breezePreset p idv⟩)
  | cmdPair idv => exact .inr (.inr ⟨_, _, .cmdPair idv⟩)

section Builds
variable {i : Instr} {src : CmdSource} {idv : Word} {c : Cfg}

theorem Builds.exec_eq (h : Builds i src idv) (s : State) :
    exec i s = .next (s.answered (build s.cfg.raw src idv)) := by
  cases h <;> rfl

theorem Builds.identityOperand_eq (h : Builds i src idv) : identityOperand i = some idv := by
  cases h <;> rfl

/-- The block's command is the one the request asks for (R121 to R126). -/
theorem Builds.command_of_commands (hb : Builds i src idv) {cmd : Cmd} (h : Commands c i cmd) :
    src.command c = .ok cmd := by
  cases hb with
  | buildPair _ => exact h ▸ rfl
  | setSpeed _ _ => obtain ⟨l, hl, rfl⟩ := h; exact speedOperand_of_level hl
  | setDirection _ _ => obtain ⟨rfl, rfl⟩ | ⟨rfl, rfl⟩ := h <;> rfl
  | toggleLight _ => exact h ▸ rfl
  | dimStep _ _ => obtain ⟨rfl, rfl⟩ | ⟨rfl, rfl⟩ := h <;> rfl
  | breezePreset _ _ => obtain ⟨hp, rfl⟩ := h; exact presetOperand_of_mem hp
  | cmdPair _ => exact h ▸ rfl

theorem Builds.command_of_badRange (hb : Builds i src idv) (h : BadRange i) :
    src.command c = .error .outOfRange := by
  cases hb with
  | setSpeed _ _ => exact speedOperand_of_nine_lt h
  | setDirection _ _ => exact directionOperand_of_two_le h
  | dimStep _ _ => exact dimOperand_of_two_le h
  | _ => exact h.elim

theorem Builds.command_of_badPreset (hb : Builds i src idv) (h : BadPreset c i) :
    src.command c = .error .unknownPreset := by
  cases hb with
  | breezePreset _ _ => exact presetOperand_of_notMem h
  | _ => exact h.elim

/-- The PARAM of a build request names a command, or R212 or R213 rejects it. -/
theorem Builds.param_cases (hb : Builds i src idv) (c : Cfg) :
    BadRange i ∨ BadPreset c i ∨ ∃ cmd, Commands c i cmd := by
  cases hb with
  | setSpeed p _ =>
    obtain ⟨l, hl, -⟩ | ⟨hp, -⟩ := speedOperand_cases p
    · exact .inr (.inr ⟨_, l, hl, rfl⟩)
    · exact .inl hp
  | setDirection p _ =>
    obtain ⟨hp, -⟩ | ⟨hp, -⟩ | ⟨hp, -⟩ := directionOperand_cases p
    · exact .inr (.inr ⟨_, .inl ⟨hp, rfl⟩⟩)
    · exact .inr (.inr ⟨_, .inr ⟨hp, rfl⟩⟩)
    · exact .inl hp
  | dimStep p _ =>
    obtain ⟨hp, -⟩ | ⟨hp, -⟩ | ⟨hp, -⟩ := dimOperand_cases p
    · exact .inr (.inr ⟨_, .inl ⟨hp, rfl⟩⟩)
    · exact .inr (.inr ⟨_, .inr ⟨hp, rfl⟩⟩)
    · exact .inl hp
  | breezePreset p _ =>
    obtain ⟨hp, -⟩ | ⟨hp, -⟩ := presetOperand_cases c p
    · exact .inr (.inr ⟨_, hp, rfl⟩)
    · exact .inr (.inl hp)
  | _ => exact .inr (.inr ⟨_, rfl⟩)

/-- Only a build request has a command or a PARAM to reject. -/
theorem exists_builds (h : BadRange i ∨ BadPreset c i ∨ ∃ cmd, Commands c i cmd) : ∃ src idv, Builds i src idv := by
  obtain rfl | ⟨idv, rfl⟩ | hb := instr_cases i
  · simp [BadRange, BadPreset, Commands] at h
  · simp [BadRange, BadPreset, Commands] at h
  · exact hb

/-- A command that a request asks for is one of the configuration's (R43). -/
theorem mem_commands_of_commands {cmd : Cmd} (h : Commands c i cmd) : cmd ∈ c.commands := by
  obtain ⟨src, idv, hb⟩ := exists_builds (.inr (.inr ⟨cmd, h⟩))
  exact CmdSource.command_ok_mem (hb.command_of_commands h)

theorem Builds.commands_of_command (hb : Builds i src idv) {cmd : Cmd} (h : src.command c = .ok cmd) :
    Commands c i cmd := by
  obtain hr | hp | ⟨cmd', hc⟩ := hb.param_cases c
  · exact nomatch (hb.command_of_badRange hr).symm.trans h
  · exact nomatch (hb.command_of_badPreset hp).symm.trans h
  · obtain rfl := Except.ok.inj ((hb.command_of_commands hc).symm.trans h)
    exact hc

/-- What the second check of R180 can report. -/
theorem Builds.command_error_cases (hb : Builds i src idv) {e : Status} (h : src.command c = .error e) :
    (BadRange i ∧ e = .outOfRange) ∨ (BadPreset c i ∧ e = .unknownPreset) := by
  obtain hr | hp | ⟨cmd, hc⟩ := hb.param_cases c
  · exact .inl ⟨hr, Except.error.inj (h.symm.trans (hb.command_of_badRange hr))⟩
  · exact .inr ⟨hp, Except.error.inj (h.symm.trans (hb.command_of_badPreset hp))⟩
  · exact nomatch h.symm.trans (hb.command_of_commands hc)

theorem not_badRange_and_badPreset (c : Cfg) (i : Instr) : ¬(BadRange i ∧ BadPreset c i) := by
  rintro ⟨hr, hp⟩
  obtain ⟨src, idv, hb⟩ := exists_builds (c := c) (.inl hr)
  exact nomatch (hb.command_of_badRange hr).symm.trans (hb.command_of_badPreset hp)

end Builds

/-! ### Each error of R218, with none before it -/

/-- The identity operand of a request, if it has one, is none that R211 rejects. -/
def IdentityPasses (c : Cfg) (i : Instr) : Prop := ∀ idv, identityOperand i = some idv → ¬BadIdentity c idv

theorem identityPasses_of_isValidId {c : Cfg} {i : Instr} {v : Identity} (h : identityOperand i = some (idOperand v))
    (hv : c.isValidId v = true) : IdentityPasses c i := by
  intro idv hidv hbad
  obtain rfl := Option.some.inj (h.symm.trans hidv)
  exact badIdentity_idOperand_iff.1 hbad hv

section Build
variable {c : Cfg} {src : CmdSource} {idv : Word}

theorem build_of_badIdentity (h : BadIdentity c idv) : build c src idv = Response.error .invalidIdentity := by
  rw [build, validateId_of_badIdentity h]

theorem build_of_command_error {e : Status} (hid : ¬BadIdentity c idv) (h : src.command c = .error e) :
    build c src idv = Response.error e := by
  simp only [build, validateId_of_not_badIdentity hid, h]

theorem build_of_opcodeOf_none {cmd : Cmd} (hid : ¬BadIdentity c idv) (h : src.command c = .ok cmd)
    (ho : c.opcodeOf cmd = none) : build c src idv = Response.error .encodingError := by
  simp only [build, validateId_of_not_badIdentity hid, h, encodeCodeword_none ho]

theorem build_of_opcodeOf_some {cmd : Cmd} {o : BitVec c.wOp} (hid : ¬BadIdentity c idv) (h : src.command c = .ok cmd)
    (ho : c.opcodeOf cmd = some o) : (build c src idv).status = .ok := by
  simp only [build, validateId_of_not_badIdentity hid, h, encodeCodeword_some ho, Response.packet_status]

end Build

section Exec
variable {i : Instr} {s : State}

theorem exec_of_badIdentity {idv : Word} (hop : identityOperand i = some idv) (hbad : BadIdentity s.cfg.raw idv) :
    exec i s = .next (s.answered (Response.error .invalidIdentity)) := by
  obtain rfl | ⟨idv', rfl⟩ | ⟨src, idv', hb⟩ := instr_cases i
  · exact nomatch hop
  · obtain rfl := Option.some.inj hop
    exact exec_validateId_of_badIdentity hbad
  · obtain rfl := Option.some.inj (hb.identityOperand_eq.symm.trans hop)
    rw [hb.exec_eq, build_of_badIdentity hbad]

theorem exec_of_badRange (hid : IdentityPasses s.cfg.raw i) (h : BadRange i) :
    exec i s = .next (s.answered (Response.error .outOfRange)) := by
  obtain ⟨src, idv, hb⟩ := exists_builds (c := s.cfg.raw) (.inl h)
  rw [hb.exec_eq, build_of_command_error (hid idv hb.identityOperand_eq) (hb.command_of_badRange h)]

theorem exec_of_badPreset (hid : IdentityPasses s.cfg.raw i) (h : BadPreset s.cfg.raw i) :
    exec i s = .next (s.answered (Response.error .unknownPreset)) := by
  obtain ⟨src, idv, hb⟩ := exists_builds (.inr (.inl h))
  rw [hb.exec_eq, build_of_command_error (hid idv hb.identityOperand_eq) (hb.command_of_badPreset h)]

theorem exec_of_opcodeOf_none {cmd : Cmd} (hid : IdentityPasses s.cfg.raw i) (h : Commands s.cfg.raw i cmd)
    (ho : s.cfg.raw.opcodeOf cmd = none) : exec i s = .next (s.answered (Response.error .encodingError)) := by
  obtain ⟨src, idv, hb⟩ := exists_builds (.inr (.inr ⟨cmd, h⟩))
  rw [hb.exec_eq, build_of_opcodeOf_none (hid idv hb.identityOperand_eq) (hb.command_of_commands h) ho]

/-- A request to which none of the errors of R218 applies answers OK. -/
theorem exec_status_ok {t : State} {resp : Response} (ht : exec i s = .next t) (hl : t.last = some resp)
    (hid : IdentityPasses s.cfg.raw i) (hr : ¬BadRange i) (hp : ¬BadPreset s.cfg.raw i)
    (hop : ∀ cmd, Commands s.cfg.raw i cmd → s.cfg.raw.opcodeOf cmd ≠ none) : resp.status = .ok := by
  obtain rfl | ⟨idv, rfl⟩ | ⟨src, idv, hb⟩ := instr_cases i
  · rw [latch_unique ht hl (exec_genId s) rfl, Response.identity_status]
  · have hv := validateId_of_not_badIdentity (hid idv rfl)
    rw [latch_unique ht hl (exec_validateId idv s) rfl, validateResponse, hv, Response.identity_status]
  · obtain hr' | hp' | ⟨cmd, hc⟩ := hb.param_cases s.cfg.raw
    · exact absurd hr' hr
    · exact absurd hp' hp
    · obtain ⟨o, ho⟩ := Option.ne_none_iff_exists'.1 (hop cmd hc)
      rw [latch_unique ht hl (hb.exec_eq s) rfl]
      exact build_of_opcodeOf_some (hid idv hb.identityOperand_eq) (hb.command_of_commands hc) ho

end Exec

/-- Settles O23. -/
theorem badIdentityIsReportedByEveryRequestWithOne : Obligations.BadIdentityIsReportedByEveryRequestWithOne :=
  fun _ _ _ hop hbad => exec_of_badIdentity hop hbad

/-- Settles O24. -/
theorem outOfRangeParametersAreReported : Obligations.OutOfRangeParametersAreReported :=
  fun _ v p hv => ⟨exec_of_badRange (i := .setSpeed p (idOperand v)) (identityPasses_of_isValidId rfl hv),
    exec_of_badRange (i := .setDirection p (idOperand v)) (identityPasses_of_isValidId rfl hv),
    exec_of_badRange (i := .dimStep p (idOperand v)) (identityPasses_of_isValidId rfl hv)⟩

/-- Settles O25. -/
theorem unknownPresetsAreReported : Obligations.UnknownPresetsAreReported :=
  fun _ _ _ hv hp => exec_of_badPreset (identityPasses_of_isValidId rfl hv) hp

/-- Settles O27: an instruction's errors in turn, each under the hypothesis that none before it applies. -/
theorem errorsAreReportedInPriorityOrder : Obligations.ErrorsAreReportedInPriorityOrder := by
  intro r s hport
  obtain ⟨hd, hstep⟩ | ⟨i, hd, hstep⟩ := step_cases_of_port hport
  · exact ⟨_, _, hstep, rfl, fun _ _ => rfl, fun i hi => nomatch hd.symm.trans hi⟩
  · obtain ⟨t, ht, -⟩ := exec_next_cfg i s
    obtain ⟨-, -, ⟨resp, hl⟩, -⟩ := requestsWriteOnlyTheLatch i s t ht
    refine ⟨t, resp, hstep.trans ht, hl, fun e he => ?_, fun j hj => ?_⟩
    · exact nomatch hd.symm.trans he
    obtain rfl := Except.ok.inj (hd.symm.trans hj)
    have answer {e : Status} (h : exec i s = .next (s.answered (Response.error e))) : resp.status = e :=
      congrArg Response.status (latch_unique ht hl h rfl)
    exact ⟨not_badRange_and_badPreset s.cfg.raw i,
      fun ⟨_, hop, hbad⟩ => answer (exec_of_badIdentity hop hbad),
      fun hid => ⟨fun hr => answer (exec_of_badRange hid hr), fun hp => answer (exec_of_badPreset hid hp),
        fun hr hp => ⟨fun ⟨_, hc, ho⟩ => answer (exec_of_opcodeOf_none hid hc ho), exec_status_ok ht hl hid hr hp⟩⟩⟩

/-! ### The statuses of each request (R217) -/

/-- The columns of R217 that every build request has. -/
theorem Builds.mem_statuses {i : Instr} {src : CmdSource} {idv : Word} (hb : Builds i src idv) :
    .ok ∈ i.statuses ∧ .invalidIdentity ∈ i.statuses ∧ .encodingError ∈ i.statuses := by
  cases hb <;> simp [Instr.statuses]

theorem outOfRange_mem_statuses {i : Instr} (h : BadRange i) : .outOfRange ∈ i.statuses := by
  cases i with
  | setSpeed _ _ => simp [Instr.statuses]
  | setDirection _ _ => simp [Instr.statuses]
  | dimStep _ _ => simp [Instr.statuses]
  | _ => exact h.elim

theorem unknownPreset_mem_statuses {c : Cfg} {i : Instr} (h : BadPreset c i) : .unknownPreset ∈ i.statuses := by
  cases i with
  | breezePreset _ _ => simp [Instr.statuses]
  | _ => exact h.elim

theorem Builds.status_mem {i : Instr} {src : CmdSource} {idv : Word} (hb : Builds i src idv) (c : Cfg) :
    (build c src idv).status ∈ i.statuses := by
  obtain ⟨hok, hident, henc⟩ := hb.mem_statuses
  obtain ⟨-, h⟩ | ⟨_, e, -, he, h⟩ | ⟨_, _, -, -, -, h⟩ | ⟨_, _, _, -, -, -, h⟩ := build_cases c src idv
  · rwa [h, Response.error_status]
  · rw [h, Response.error_status]
    obtain ⟨hr, rfl⟩ | ⟨hp, rfl⟩ := hb.command_error_cases he
    · exact outOfRange_mem_statuses hr
    · exact unknownPreset_mem_statuses hp
  · rwa [h, Response.error_status]
  · rwa [h, Response.packet_status]

theorem validateResponse_status_mem (c : Cfg) (idv : Word) :
    (validateResponse c idv).status ∈ (Instr.validateId idv).statuses := by
  unfold validateResponse
  obtain ⟨h, -⟩ | ⟨h, -⟩ := validateId_cases c idv
  · simp [h, Instr.statuses]
  · simp [h, Instr.statuses]

/-- Settles O28. -/
theorem statusesStayInTheTableOfTheRequest : Obligations.StatusesStayInTheTableOfTheRequest := by
  intro i s t ht
  obtain rfl | ⟨idv, rfl⟩ | ⟨src, idv, hb⟩ := instr_cases i
  · obtain rfl := Host.Outcome.next.inj ((exec_genId s).symm.trans ht)
    exact ⟨_, rfl, List.mem_singleton_self _⟩
  · obtain rfl := Host.Outcome.next.inj ((exec_validateId idv s).symm.trans ht)
    exact ⟨_, rfl, validateResponse_status_mem _ idv⟩
  · obtain rfl := Host.Outcome.next.inj ((hb.exec_eq s).symm.trans ht)
    exact ⟨_, rfl, hb.status_mem _⟩

/-! ### ENCODING_ERROR (R214) -/

/-- The build procedure reports ENCODING_ERROR at its last check only (R180). -/
theorem Builds.cause_of_encodingError {i : Instr} {src : CmdSource} {idv : Word} {c : Cfg} (hb : Builds i src idv)
    (h : (build c src idv).status = .encodingError) : ∃ (v : Identity) (cmd : Cmd),
      identityOperand i = some (idOperand v) ∧ c.isValidId v = true ∧ Commands c i cmd ∧ c.opcodeOf cmd = none := by
  obtain ⟨-, hr⟩ | ⟨_, e, -, he, hr⟩ | ⟨v, cmd, hv, hc, ho, -⟩ | ⟨_, _, _, -, -, -, hr⟩ := build_cases c src idv
  · simp [hr] at h
  · rw [hr, Response.error_status] at h
    obtain ⟨-, rfl⟩ | ⟨-, rfl⟩ := hb.command_error_cases he <;> exact nomatch h
  · obtain ⟨hvalid, rfl⟩ := validateId_eq_ok_iff.1 hv
    exact ⟨v, cmd, hb.identityOperand_eq, hvalid, hb.commands_of_command hc, ho⟩
  · simp [hr] at h

/-- GEN_ID and VALIDATE_ID have no such status, so the instruction builds. -/
theorem exec_cause_of_encodingError {i : Instr} {s t : State} {resp : Response} (ht : exec i s = .next t)
    (hl : t.last = some resp) (h : resp.status = .encodingError) : ∃ (v : Identity) (cmd : Cmd),
      identityOperand i = some (idOperand v) ∧ s.cfg.raw.isValidId v = true ∧ Commands s.cfg.raw i cmd ∧
        s.cfg.raw.opcodeOf cmd = none := by
  obtain ⟨resp', hl', hmem⟩ := statusesStayInTheTableOfTheRequest i s t ht
  obtain rfl := latch_unique ht hl ht hl'
  obtain rfl | ⟨idv, rfl⟩ | ⟨src, idv, hb⟩ := instr_cases i
  · simp [h, Instr.statuses] at hmem
  · simp [h, Instr.statuses] at hmem
  · exact hb.cause_of_encodingError (latch_unique ht hl (hb.exec_eq s) rfl ▸ h)

/-- A step that answers ENCODING_ERROR ran an instruction with a cause, for a malformed request has another status. -/
theorem step_cause_of_encodingError {r : Request} {s t : State} {resp : Response} (hp : s.port = some r)
    (ht : step s = .next t) (hl : t.last = some resp) (h : resp.status = .encodingError) :
    ∃ (i : Instr) (v : Identity) (cmd : Cmd), decode r = .ok i ∧ identityOperand i = some (idOperand v) ∧
      s.cfg.raw.isValidId v = true ∧ Commands s.cfg.raw i cmd ∧ s.cfg.raw.opcodeOf cmd = none := by
  obtain ⟨-, hstep⟩ | ⟨i, hd, hstep⟩ := step_cases_of_port hp
  · obtain rfl := Host.Outcome.next.inj (hstep.symm.trans ht)
    obtain rfl := Option.some.inj hl
    exact nomatch h
  · obtain ⟨v, cmd, hcause⟩ := exec_cause_of_encodingError (hstep.symm.trans ht) hl h
    exact ⟨i, v, cmd, hd, hcause⟩

/-- Settles O26: a total `OPC` leaves the converse's cause no command. -/
theorem encodingErrorExactlyForCommandsWithoutOpcode : Obligations.EncodingErrorExactlyForCommandsWithoutOpcode := by
  intro s
  refine ⟨fun i v cmd hop hv => exec_of_opcodeOf_none (identityPasses_of_isValidId hop hv),
    fun htotal r t resp hp ht hl h => ?_, fun r t resp => step_cause_of_encodingError⟩
  obtain ⟨i, v, cmd, -, -, -, hc, ho⟩ := step_cause_of_encodingError hp ht hl h
  exact htotal cmd (mem_commands_of_commands hc) ho

end Sys2Proof.Machine

/-! PROOFS. The reset event, and the request after it. -/

namespace Sys2Proof.Machine

/-- Settles O2: a response is a function of `CFG` alone, and the reset event keeps `CFG`. -/
theorem requestAfterResetBehavesAsAnyLaterOne : Obligations.RequestAfterResetBehavesAsAnyLaterOne := by
  intro s r
  refine ⟨s.applyReset_last, s.applyReset_port, s.applyReset_cfg, fun hr => ?_⟩
  obtain ⟨f, hf⟩ := serve_response hr
  refine ⟨_, _, hf s.applyReset, hf s, ?_, ?_⟩
  · rw [State.respond_last, State.respond_last, State.applyReset_cfg]
  · rw [State.respond_cfg, State.respond_cfg, State.applyReset_cfg]

end Sys2Proof.Machine
